-- ==== Sys2Proof/Word.lean ====
section
/-! DEFINITION. The widths of the RSE Link core: the 32-bit transport word and its seven fields
(30_encoding.md R70). Every value is unsigned (00_scope.md R8). -/

namespace Sys2Proof

/-- A transport word: one packed packet (30_encoding.md R70, R84). -/
abbrev Word := BitVec 32
/-- A collaborator value, or one byte of a word's byte image (20_memory.md R52, R53). -/
abbrev Byte := BitVec 8
/-- ProtocolVersion (30_encoding.md R72). -/
abbrev Ver := BitVec 3
/-- SystemID (30_encoding.md R73); also the index of the counter file (10_state.md R24). -/
abbrev SysId := BitVec 2
/-- PacketSequence (30_encoding.md R74); also one entry of the counter file (10_state.md R24). -/
abbrev Seq := BitVec 5
/-- ComponentID (30_encoding.md R75). -/
abbrev CompId := BitVec 8
/-- MessageID code (30_encoding.md R76). -/
abbrev MsgCode := BitVec 2
/-- CheckSum (30_encoding.md R78). -/
abbrev Chk := BitVec 4
/-- The 28 bits `w[31:4]` that the checksum covers (41_checksum_validator.md R120). -/
abbrev Covered := BitVec 28

end Sys2Proof
end

