-- ==== Sys2Proof/Config.lean ====
section
/-! DEFINITION. The configuration parameters of 00_scope.md R7 as plain data, and the vocabulary
they are written in: message types, result codes, registry descriptors. The values the spec decides
are in Sys2Proof/Machine/Decided.lean. -/

namespace Sys2Proof

/-- The five message types of 30_encoding.md R76. A MessageID code without one is `Unassigned`. -/
inductive MsgType where
  | readValue | setValue | updateValue | response | identifyDevice
  deriving DecidableEq, Repr

/-- The six result codes (00_scope.md R13, 60_exceptions.md R220). -/
inductive ResultCode where
  | done | failure | unsupported | crcError | unknownCommand | invalidValue
  deriving DecidableEq, Repr

/-- The nine ComponentID ranges (42_component_registry.md R140), in the order of 30_encoding.md R80. -/
inductive Category where
  | preamp | compressor | equalizer | effects | modulation | routing | dynamics
  | metersStatus | serviceIdentification
  deriving DecidableEq, Repr

/-- Access mode of a component (42_component_registry.md R142): read-only, write-only, read-write. -/
inductive Access where
  | ro | wo | rw
  deriving DecidableEq, Repr

/-- The enumerated names of 42_component_registry.md R141, and `generic` for every other ID (R142). -/
inductive ParamName where
  | compThreshold | meterInputLevel | deviceId | firmwareVersion | generic
  deriving DecidableEq, Repr

/-- A set of 8-bit values, as a list of inclusive ranges; the empty list is the empty set
(42_component_registry.md R142, R145). -/
abbrev Domain := List (Byte × Byte)

/-- What LOOKUP returns for a known ComponentID (42_component_registry.md R142). -/
structure Descriptor where
  category : Category
  name     : ParamName
  access   : Access
  domain   : Domain
  deriving DecidableEq, Repr

/-- The roles a SystemID code can name (30_encoding.md R73). -/
inductive Role where
  | host | masterComCh1 | masterComCh2
  deriving DecidableEq, Repr

/-- `P_WIRE_BYTE_ORDER` (20_memory.md R52). -/
inductive ByteOrder where
  | big | little
  deriving DecidableEq, Repr

/-- `P_CHECKSUM` (41_checksum_validator.md R122): the two functions the spec defines, the CRC-4 of
93_implementation_defined.md G1 (PRESUMED there, log 11), or some other function of the 28 covered
bits, named by a number. -/
inductive ChecksumAlg where
  | nibbleSum | nibbleXor | crc4
  | device (n : Nat)
  deriving DecidableEq, Repr

/-- FREE VALUE (log 11). The checksum functions the spec does not write out: "`P_CHECKSUM` may be any
total function from 28 bits to 4 bits" (41_checksum_validator.md R122). No body, so what is proved of
`.device n` holds for every such function. -/
opaque Config.deviceChecksum : Nat → Covered → Chk

/-- `P_MSG_TYPE_MAP` (30_encoding.md R76): the type of each of the four codes, `none` for
`Unassigned`. -/
structure MsgTypeMap where
  code0 : Option MsgType
  code1 : Option MsgType
  code2 : Option MsgType
  code3 : Option MsgType
  deriving DecidableEq, Repr

/-- `P_SYSTEM_ID_CODE` (30_encoding.md R73). -/
structure SystemIdCodes where
  host         : SysId
  masterComCh1 : SysId
  masterComCh2 : SysId
  deriving DecidableEq, Repr

/-- `P_RESULT_CODE` (30_encoding.md R79): the value each result code has on the wire. -/
structure ResultCodes where
  done           : Byte
  failure        : Byte
  unsupported    : Byte
  crcError       : Byte
  unknownCommand : Byte
  invalidValue   : Byte
  deriving DecidableEq, Repr

/-- `P_REGISTRY` as its departures from the source's table and defaults (log 9): the IDs that are
Unknown (42_component_registry.md R146), the access modes that differ (R144), the domains that are
narrowed (R145). The first entry for an ID counts. -/
structure Registry where
  unknown : List CompId
  access  : List (CompId × Access)
  domain  : List (CompId × Domain)
  deriving DecidableEq, Repr

/-- The parameters of 00_scope.md R7, in the order of its table. -/
structure Config where
  ownSystemId       : SysId
  supportedVersions : List Ver
  respVersion       : Ver
  checksum          : ChecksumAlg
  msgTypeMap        : MsgTypeMap
  systemIdCodes     : SystemIdCodes
  resultCodes       : ResultCodes
  registry          : Registry
  idCompThreshold   : CompId
  idMeterInputLevel : CompId
  idDeviceId        : CompId
  idFirmwareVersion : CompId
  seqInit           : Seq
  wireByteOrder     : ByteOrder
  deriving DecidableEq, Repr

/-- The conditions of 70_reset_and_hazards.md R253 that a refused configuration breaks, items 1 to 5.
Item 6 (`P_CHECKSUM` is a total function of `w[31:4]` alone) holds of every `ChecksumAlg` by its type. -/
inductive ConfigProblem where
  /-- Item 1: not exactly one MessageID code maps to Response (44_response_encoder.md R205). -/
  | responseCode
  /-- Item 2: two MessageID codes map to the same MessageType. -/
  | duplicateType
  /-- Item 3: an ID in `0xE0..0xEF` has an access other than RO. -/
  | meterAccess
  /-- Item 4: an enumerated name lies outside its category's range. -/
  | nameRange
  /-- Item 5: `P_ID_DEVICE_ID = P_ID_FIRMWARE_VERSION`. -/
  | identityClash
  deriving DecidableEq, Repr

end Sys2Proof
end

