-- ==== Sys2Proof/Machine/Decided.lean ====
section
/-! DEFINITION. The values the spec decides for its parameters (00_scope.md R7), and the value
1 that its test vectors use for the OPEN `P_OWN_SYSTEM_ID` (log 2). -/

namespace Sys2Proof.Machine

/-- `P_MSG_TYPE_MAP` as decided (30_encoding.md R76, 92_eei_decisions.md D3). -/
def decidedMsgTypeMap : MsgTypeMap :=
  { code0 := some .readValue, code1 := some .setValue,
    code2 := some .updateValue, code3 := some .response }

/-- `P_RESULT_CODE` as decided (30_encoding.md R79, 92_eei_decisions.md D5). -/
def decidedResultCodes : ResultCodes :=
  { done := 0x00#8, failure := 0x01#8, unsupported := 0x02#8,
    crcError := 0x03#8, unknownCommand := 0x04#8, invalidValue := 0x05#8 }

/-- `P_SYSTEM_ID_CODE` as decided (30_encoding.md R73, 92_eei_decisions.md D4). -/
def decidedSystemIdCodes : SystemIdCodes :=
  { host := 0#2, masterComCh1 := 1#2, masterComCh2 := 2#2 }

/-- `P_REGISTRY` as decided: no departure from the source's table and the defaults of
42_component_registry.md R142 to R146 (92_eei_decisions.md D10, D11, D25). -/
def decidedRegistry : Registry :=
  { unknown := [], access := [], domain := [] }

/-- The decided configuration for a node whose SystemID is `own` (00_scope.md R7). -/
def decidedFor (own : SysId) : Config :=
  { ownSystemId := own
    supportedVersions := [1#3]
    respVersion := 1#3
    checksum := .nibbleSum
    msgTypeMap := decidedMsgTypeMap
    systemIdCodes := decidedSystemIdCodes
    resultCodes := decidedResultCodes
    registry := decidedRegistry
    idCompThreshold := 0x20#8
    idMeterInputLevel := 0xE0#8
    idDeviceId := 0xF0#8
    idFirmwareVersion := 0xF1#8
    seqInit := 0#5
    wireByteOrder := .big }

/-- The configuration after reset. DESIGN CHOICE (log 2): `P_OWN_SYSTEM_ID` is OPEN in the spec
(92_eei_decisions.md D13), and 1 is the value its test vectors use. -/
def decidedConfig : Config := decidedFor 1#2

end Sys2Proof.Machine
end

