-- ==== Sys2Proof/Syntax.lean ====
section
/-! DEFINITION. The packet record and the instructions: one constructor per row of
spec/opcode_table.json, in the table's order. -/

namespace Sys2Proof

/-- A decoded packet (00_scope.md R10, 30_encoding.md R70), most significant field first. -/
structure Packet where
  ver  : Ver
  sys  : SysId
  seq  : Seq
  comp : CompId
  msg  : MsgCode
  val  : Byte
  chk  : Chk
  deriving DecidableEq, Repr

/-- The operand of ENCODE: each field "is taken as a natural number that may exceed its width"
(40_packet_codec.md R101). -/
structure WidePacket where
  ver  : Nat
  sys  : Nat
  seq  : Nat
  comp : Nat
  msg  : Nat
  val  : Nat
  chk  : Nat
  deriving DecidableEq, Repr

/-- The dispatcher's handlers (30_encoding.md R82). Each carries the whole decoded packet, as the
handlers of 43_command_dispatcher.md do. -/
inductive Instr where
  /-- 43_command_dispatcher.md R171. -/
  | readDeviceId (p : Packet)
  /-- 43_command_dispatcher.md R172. -/
  | readFirmwareVersion (p : Packet)
  /-- 43_command_dispatcher.md R170. -/
  | readValue (p : Packet)
  /-- 43_command_dispatcher.md R175. -/
  | setValue (p : Packet)
  /-- 43_command_dispatcher.md R178. -/
  | updateValue (p : Packet)
  /-- 43_command_dispatcher.md R179. -/
  | responseIn (p : Packet)
  /-- 43_command_dispatcher.md R180. -/
  | identifyDevice (p : Packet)
  /-- 43_command_dispatcher.md R181. -/
  | unassignedMessage (p : Packet)
  deriving DecidableEq, Repr

/-- The packet an instruction carries. -/
def Instr.packet : Instr → Packet
  | .readDeviceId p => p
  | .readFirmwareVersion p => p
  | .readValue p => p
  | .setValue p => p
  | .updateValue p => p
  | .responseIn p => p
  | .identifyDevice p => p
  | .unassignedMessage p => p

/-- The message type that selects an instruction, `none` for `Unassigned` (30_encoding.md R82). -/
def Instr.msgType : Instr → Option MsgType
  | .readDeviceId _ => some .readValue
  | .readFirmwareVersion _ => some .readValue
  | .readValue _ => some .readValue
  | .setValue _ => some .setValue
  | .updateValue _ => some .updateValue
  | .responseIn _ => some .response
  | .identifyDevice _ => some .identifyDevice
  | .unassignedMessage _ => none

/-- The mnemonic of an instruction's row in spec/opcode_table.json. -/
def Instr.mnemonic : Instr → String
  | .readDeviceId _ => "READ_DEVICE_ID"
  | .readFirmwareVersion _ => "READ_FIRMWARE_VERSION"
  | .readValue _ => "READ_VALUE"
  | .setValue _ => "SET_VALUE"
  | .updateValue _ => "UPDATE_VALUE"
  | .responseIn _ => "RESPONSE_IN"
  | .identifyDevice _ => "IDENTIFY_DEVICE"
  | .unassignedMessage _ => "UNASSIGNED_MESSAGE"

end Sys2Proof
end

