-- ==== Sys2Proof/Machine/Operands.lean ====
section
/-! DEFINITION. The operands of a packet under a configuration: message type, version, named IDs,
roles, value domains. -/

namespace Sys2Proof.Machine

/-- `P_MSG_TYPE_MAP(m)` (30_encoding.md R76); `none` is `Unassigned`. -/
def msgTypeOf (cfg : Config) (m : MsgCode) : Option MsgType :=
  if m = 0#2 then cfg.msgTypeMap.code0
  else if m = 1#2 then cfg.msgTypeMap.code1
  else if m = 2#2 then cfg.msgTypeMap.code2
  else cfg.msgTypeMap.code3

/-- The four MessageID codes. -/
def msgCodes : List MsgCode := [0#2, 1#2, 2#2, 3#2]

/-- The lowest code that a message type has, if it has one (30_encoding.md R76). -/
def codeOf (cfg : Config) (t : MsgType) : Option MsgCode :=
  msgCodes.find? fun m => msgTypeOf cfg m == some t

/-- `RESP_CODE` (44_response_encoder.md R205). A configuration without a code for Response is
refused before any word is built, so the default is never seen (log 21). -/
def respCode (cfg : Config) : MsgCode := (codeOf cfg .response).getD 0#2

/-- `ver ∈ P_SUPPORTED_VERSIONS` (30_encoding.md R72). -/
def versionSupported (cfg : Config) (v : Ver) : Bool := cfg.supportedVersions.contains v

/-- The parameter `P_ID_<name>` of an enumerated name (42_component_registry.md R141). -/
def namedId (cfg : Config) : ParamName → Option CompId
  | .compThreshold => some cfg.idCompThreshold
  | .meterInputLevel => some cfg.idMeterInputLevel
  | .deviceId => some cfg.idDeviceId
  | .firmwareVersion => some cfg.idFirmwareVersion
  | .generic => none

/-- `P_SYSTEM_ID_CODE(role)` (30_encoding.md R73). -/
def roleCode (cfg : Config) : Role → SysId
  | .host => cfg.systemIdCodes.host
  | .masterComCh1 => cfg.systemIdCodes.masterComCh1
  | .masterComCh2 => cfg.systemIdCodes.masterComCh2

/-- `v ∈ d` for a value domain (42_component_registry.md R142). -/
def inDomain (d : Domain) (v : Byte) : Bool :=
  d.any fun r => decide (r.1 ≤ v) && decide (v ≤ r.2)

end Sys2Proof.Machine
end

