-- ==== Sys2Proof/WellFormed.lean ====
section
/-! DEFINITION. Which packets an instruction may carry under a configuration: those whose MessageID
code and ComponentID select it (30_encoding.md R82). The other fields never select a handler. -/

namespace Sys2Proof

/-- An instruction is well formed under `cfg` when its packet selects it (30_encoding.md R82). The
identity rows take precedence over READ_VALUE, and DEVICE_ID over FIRMWARE_VERSION, in the order of
43_command_dispatcher.md R160. -/
def Instr.wellFormed (cfg : Config) (i : Instr) : Bool :=
  (Machine.msgTypeOf cfg i.packet.msg == i.msgType) &&
  match i with
  | .readDeviceId p => p.comp == cfg.idDeviceId
  | .readFirmwareVersion p => p.comp == cfg.idFirmwareVersion && p.comp != cfg.idDeviceId
  | .readValue p => p.comp != cfg.idDeviceId && p.comp != cfg.idFirmwareVersion
  | .setValue _ => true
  | .updateValue _ => true
  | .responseIn _ => true
  | .identifyDevice _ => true
  | .unassignedMessage _ => true

end Sys2Proof
end

