-- ==== Sys2Proof/Decode.lean ====
section
/-! DEFINITION. packet_codec (40_packet_codec.md), the selection of a handler (30_encoding.md R82),
the byte image of a word (20_memory.md R52) and the encoder. -/

namespace Sys2Proof

/-- DECODE (40_packet_codec.md R100). -/
def decodePacket (w : Word) : Packet :=
  { ver  := w.extractLsb' 29 3
    sys  := w.extractLsb' 27 2
    seq  := w.extractLsb' 22 5
    comp := w.extractLsb' 14 8
    msg  := w.extractLsb' 12 2
    val  := w.extractLsb' 4 8
    chk  := w.extractLsb' 0 4 }

/-- The seven fields of a packet (30_encoding.md R70). -/
inductive Field where
  | ver | sys | seq | comp | msg | val | chk
  deriving DecidableEq, Repr

/-- The fields, most significant first. -/
def allFields : List Field := [.ver, .sys, .seq, .comp, .msg, .val, .chk]

/-- The mask column of 30_encoding.md R71. -/
def fieldMask : Field → Word
  | .ver => 0xE0000000#32
  | .sys => 0x18000000#32
  | .seq => 0x07C00000#32
  | .comp => 0x003FC000#32
  | .msg => 0x00003000#32
  | .val => 0x00000FF0#32
  | .chk => 0x0000000F#32

/-- The shift column of 30_encoding.md R71. -/
def fieldShift : Field → Nat
  | .ver => 29
  | .sys => 27
  | .seq => 22
  | .comp => 14
  | .msg => 12
  | .val => 4
  | .chk => 0

/-- A field read by mask and shift (30_encoding.md R71, R81). -/
def fieldByMask (f : Field) (w : Word) : Word := (w &&& fieldMask f) >>> fieldShift f

/-- A field of a decoded packet, zero-extended (30_encoding.md R81). -/
def fieldOf (f : Field) (p : Packet) : Word :=
  match f with
  | .ver => p.ver.setWidth 32
  | .sys => p.sys.setWidth 32
  | .seq => p.seq.setWidth 32
  | .comp => p.comp.setWidth 32
  | .msg => p.msg.setWidth 32
  | .val => p.val.setWidth 32
  | .chk => p.chk.setWidth 32

/-- The bits `w[31:4]` that the checksum covers (41_checksum_validator.md R120). -/
def coveredBits (w : Word) : Covered := w.extractLsb' 4 28

/-- The handler a packet selects (30_encoding.md R82, 43_command_dispatcher.md R160 and R165). The
gates do not take part: they are judged when the instruction runs (log 15). -/
def selectHandler (cfg : Config) (p : Packet) : Instr :=
  match Machine.msgTypeOf cfg p.msg with
  | some .readValue =>
    if p.comp = cfg.idDeviceId then .readDeviceId p
    else if p.comp = cfg.idFirmwareVersion then .readFirmwareVersion p
    else .readValue p
  | some .setValue => .setValue p
  | some .updateValue => .updateValue p
  | some .response => .responseIn p
  | some .identifyDevice => .identifyDevice p
  | none => .unassignedMessage p

/-- The instruction a word is. Total: "No 32-bit word is illegal to decode" (30_encoding.md R83). -/
def decode (cfg : Config) (w : Word) : Instr := selectHandler cfg (decodePacket w)

/-- The bytes of a word, lowest address (first on the wire) first (20_memory.md R52). -/
def wireBytes (order : ByteOrder) (w : Word) : List Byte :=
  let bigEndian := [w.extractLsb' 24 8, w.extractLsb' 16 8, w.extractLsb' 8 8, w.extractLsb' 0 8]
  match order with
  | .big => bigEndian
  | .little => bigEndian.reverse

/-- Why bytes are no packet. The core never sees them: framing is checked upstream
(43_command_dispatcher.md R160, step 1 of the source). -/
inductive FramingRefusal where
  /-- Fewer than the four bytes of a word (30_encoding.md R84). Safe: no packet is produced. -/
  | incomplete
  /-- More than the four bytes of a word (30_encoding.md R84). Safe: no packet is produced. -/
  | overlong
  deriving DecidableEq, Repr

/-- The word that bytes image, or why they image none (20_memory.md R52, 30_encoding.md R84). -/
def wordOfBytes (order : ByteOrder) : List Byte → Except FramingRefusal Word
  | [a, b, c, d] =>
    match order with
    | .big => .ok (a ++ b ++ c ++ d)
    | .little => .ok (d ++ c ++ b ++ a)
  | _ :: _ :: _ :: _ :: _ :: _ => .error .overlong
  | _ => .error .incomplete

/-- The instruction that bytes image under a configuration. -/
def decodeBytes (cfg : Config) (bs : List Byte) : Except FramingRefusal Instr :=
  match wordOfBytes cfg.wireByteOrder bs with
  | .ok w => .ok (decode cfg w)
  | .error e => .error e

/-- The instruction the decoder reads, under the decided configuration, from the instruction whose
bits are `w` (bit 0 the least significant bit of the one 32-bit word), laid out in the wire's byte
order. Bits at `nbits` and above are 0; more than 32 bits are no packet (30_encoding.md R84). -/
def decodeTableWord (nbits w : Nat) : Option Instr :=
  if 32 < nbits then none
  else
    let cfg := Machine.decidedConfig
    match decodeBytes cfg (wireBytes cfg.wireByteOrder (BitVec.ofNat 32 (w % 2 ^ nbits))) with
    | .ok i => some i
    | .error _ => none

/-- ENCODE on a packet whose fields have their widths (40_packet_codec.md R101). -/
def encodePacket (p : Packet) : Word :=
  p.ver ++ p.sys ++ p.seq ++ p.comp ++ p.msg ++ p.val ++ p.chk

/-- Each field masked to its width, the low bits kept (40_packet_codec.md R101). -/
def truncPacket (f : WidePacket) : Packet :=
  { ver  := BitVec.ofNat 3 f.ver
    sys  := BitVec.ofNat 2 f.sys
    seq  := BitVec.ofNat 5 f.seq
    comp := BitVec.ofNat 8 f.comp
    msg  := BitVec.ofNat 2 f.msg
    val  := BitVec.ofNat 8 f.val
    chk  := BitVec.ofNat 4 f.chk }

/-- ENCODE (40_packet_codec.md R101). -/
def encodeWide (f : WidePacket) : Word := encodePacket (truncPacket f)

/-- The word of an instruction (30_encoding.md R70). -/
def encode (i : Instr) : Word := encodePacket i.packet

/-- One row of spec/opcode_table.json: a word belongs to it when `w &&& mask = pattern`. -/
structure OpcodeRow where
  mnemonic : String
  pattern  : Word
  mask     : Word
  deriving DecidableEq, Repr

/-- The bits of a MessageID code in a row with `ver = 1`. -/
def rowPattern (m : MsgCode) : Word := 0x20000000#32 ||| (m.setWidth 32 <<< 12)

/-- The bits of a ComponentID in a row. -/
def rowComp (c : CompId) : Word := c.setWidth 32 <<< 14

/-- The rows of spec/opcode_table.json for one MessageID code under a configuration, in the table's
order of precedence (30_encoding.md R82, and the notes of the two rows without a match). -/
def rowsOfCode (cfg : Config) (m : MsgCode) : List OpcodeRow :=
  match Machine.msgTypeOf cfg m with
  | some .readValue =>
    [⟨"READ_DEVICE_ID", rowPattern m ||| rowComp cfg.idDeviceId, 0xE03FF000#32⟩,
     ⟨"READ_FIRMWARE_VERSION", rowPattern m ||| rowComp cfg.idFirmwareVersion, 0xE03FF000#32⟩,
     ⟨"READ_VALUE", rowPattern m, 0xE0003000#32⟩]
  | some .setValue => [⟨"SET_VALUE", rowPattern m, 0xE0003000#32⟩]
  | some .updateValue => [⟨"UPDATE_VALUE", rowPattern m, 0xE0003000#32⟩]
  | some .response => [⟨"RESPONSE_IN", rowPattern m, 0xE0003000#32⟩]
  | some .identifyDevice => [⟨"IDENTIFY_DEVICE", rowPattern m, 0xE0003000#32⟩]
  | none => [⟨"UNASSIGNED_MESSAGE", rowPattern m, 0xE0003000#32⟩]

/-- The opcode table under a configuration. -/
def opcodeRows (cfg : Config) : List OpcodeRow := Machine.msgCodes.flatMap (rowsOfCode cfg)

/-- The first row of the opcode table that a word matches. -/
def tableRow (cfg : Config) (w : Word) : Option OpcodeRow :=
  (opcodeRows cfg).find? fun r => w &&& r.mask == r.pattern

end Sys2Proof
end

