-- ==== Sys2Proof/Machine/Checksum.lean ====
section
/-! DEFINITION. checksum_validator (41_checksum_validator.md) and FINISH (44_response_encoder.md
R202), the only two users of the checksum (41_checksum_validator.md R124). -/

namespace Sys2Proof.Machine

/-- Nibble `k` of the covered bits, `k = 0` the least significant (41_checksum_validator.md R120). -/
def nibble (h : Covered) (k : Nat) : Chk := h.extractLsb' (4 * k) 4

/-- `NIBBLE_SUM` (41_checksum_validator.md R120): the sum of the seven nibbles mod 16. -/
def nibbleSum (h : Covered) : Chk :=
  nibble h 6 + nibble h 5 + nibble h 4 + nibble h 3 + nibble h 2 + nibble h 1 + nibble h 0

/-- `NIBBLE_XOR` (41_checksum_validator.md R122). -/
def nibbleXor (h : Covered) : Chk :=
  nibble h 6 ^^^ nibble h 5 ^^^ nibble h 4 ^^^ nibble h 3 ^^^ nibble h 2 ^^^ nibble h 1 ^^^ nibble h 0

/-- One data bit fed to the CRC-4 register (93_implementation_defined.md G1). -/
def crc4Feed (r : Chk) (bit : Bool) : Chk :=
  if (r.getLsbD 3 ^^ bit) then (r <<< 1) ^^^ 0x3#4 else r <<< 1

/-- `CRC4_X4X1` (93_implementation_defined.md G1). PRESUMED by the spec itself: "from general
knowledge, not in source" (log 11). -/
def crc4 (h : Covered) : Chk :=
  (List.range 28).foldl (fun r k => crc4Feed r (h.getLsbD (27 - k))) 0#4

/-- `P_CHECKSUM`, CHK_COMPUTE (41_checksum_validator.md R120, R122). -/
def checksum (cfg : Config) (h : Covered) : Chk :=
  match cfg.checksum with
  | .nibbleSum => nibbleSum h
  | .nibbleXor => nibbleXor h
  | .crc4 => crc4 h
  | .device n => Config.deviceChecksum n h

/-- CHK_VERIFY (41_checksum_validator.md R121). -/
def chkVerify (cfg : Config) (w : Word) : Bool :=
  checksum cfg (coveredBits w) == w.extractLsb' 0 4

/-- FINISH (44_response_encoder.md R202): the word of a packet with its checksum computed. -/
def finish (cfg : Config) (f : Packet) : Word :=
  let h := coveredBits (encodePacket { f with chk := 0#4 })
  encodePacket { f with chk := checksum cfg h }

end Sys2Proof.Machine
end

