-- ==== Sys2Proof/Machine/Flags.lean ====
section
/-! DEFINITION. The core has no flags and no status register (10_state.md R25). Its only
per-transaction status is the result code: its index on the `res` bus and its value on the wire. -/

namespace Sys2Proof.Machine

/-- The index of a result code on the 3-bit `res` bus (10_state.md R26). -/
def resultIndex : ResultCode → BitVec 3
  | .done => 0#3
  | .failure => 1#3
  | .unsupported => 2#3
  | .crcError => 3#3
  | .unknownCommand => 4#3
  | .invalidValue => 5#3

/-- `P_RESULT_CODE(r)`: the value of a result code in a response's `val` (30_encoding.md R79). -/
def resultWire (cfg : Config) : ResultCode → Byte
  | .done => cfg.resultCodes.done
  | .failure => cfg.resultCodes.failure
  | .unsupported => cfg.resultCodes.unsupported
  | .crcError => cfg.resultCodes.crcError
  | .unknownCommand => cfg.resultCodes.unknownCommand
  | .invalidValue => cfg.resultCodes.invalidValue

/-- The internal category code (30_encoding.md R80); it never appears on the wire. -/
def categoryCode : Category → Nat
  | .preamp => 0
  | .compressor => 1
  | .equalizer => 2
  | .effects => 3
  | .modulation => 4
  | .routing => 5
  | .dynamics => 6
  | .metersStatus => 7
  | .serviceIdentification => 8

end Sys2Proof.Machine
end

