-- ==== Sys2Proof/Machine/Registry.lean ====
section
/-! DEFINITION. The component registry (42_component_registry.md) and the conditions a
configuration must meet (70_reset_and_hazards.md R253). -/

namespace Sys2Proof.Machine

/-- The range table of 42_component_registry.md R140: first ID, last ID, category. -/
def rangeTable : List (CompId × CompId × Category) :=
  [(0x00#8, 0x1F#8, .preamp), (0x20#8, 0x3F#8, .compressor), (0x40#8, 0x5F#8, .equalizer),
   (0x60#8, 0x7F#8, .effects), (0x80#8, 0x9F#8, .modulation), (0xA0#8, 0xBF#8, .routing),
   (0xC0#8, 0xDF#8, .dynamics), (0xE0#8, 0xEF#8, .metersStatus),
   (0xF0#8, 0xFF#8, .serviceIdentification)]

/-- The category of the range that contains `c`, if one does (42_component_registry.md R143). -/
def categoryOf (c : CompId) : Option Category :=
  (rangeTable.find? fun r => decide (r.1 ≤ c) && decide (c ≤ r.2.1)).map fun r => r.2.2

/-- The category as the hardware wires it (42_component_registry.md R140): `c[7:5]` below `0xE0`,
then `c[4]`. -/
def categoryWired (c : CompId) : Category :=
  if c < 0xE0#8 then
    match (c.extractLsb' 5 3).toNat with
    | 0 => .preamp
    | 1 => .compressor
    | 2 => .equalizer
    | 3 => .effects
    | 4 => .modulation
    | 5 => .routing
    | _ => .dynamics
  else if c.getLsbD 4 then .serviceIdentification else .metersStatus

/-- The enumerated name of an ID, else `generic` (42_component_registry.md R143). -/
def nameOf (cfg : Config) (c : CompId) : ParamName :=
  if c = cfg.idCompThreshold then .compThreshold
  else if c = cfg.idMeterInputLevel then .meterInputLevel
  else if c = cfg.idDeviceId then .deviceId
  else if c = cfg.idFirmwareVersion then .firmwareVersion
  else .generic

/-- The default access mode of a category (42_component_registry.md R144). -/
def defaultAccess : Category → Access
  | .preamp => .rw
  | .compressor => .rw
  | .equalizer => .rw
  | .effects => .rw
  | .modulation => .rw
  | .routing => .rw
  | .dynamics => .rw
  | .metersStatus => .ro
  | .serviceIdentification => .ro

/-- The default domain, every 8-bit value (42_component_registry.md R145). -/
def fullDomain : Domain := [(0x00#8, 0xFF#8)]

/-- LOOKUP, that is `P_REGISTRY(c)`; `none` is `Unknown` (42_component_registry.md R143 to R146). -/
def lookup (cfg : Config) (c : CompId) : Option Descriptor :=
  if cfg.registry.unknown.contains c then none
  else
    match categoryOf c with
    | none => none
    | some cat =>
      some { category := cat
             name := nameOf cfg c
             access := (cfg.registry.access.lookup c).getD (defaultAccess cat)
             domain := (cfg.registry.domain.lookup c).getD fullDomain }

/-- The IDs `0xE0..0xEF` of Meters/Status (42_component_registry.md R140). -/
def meterIds : List CompId := (List.range 16).map fun k => 0xE0#8 + BitVec.ofNat 8 k

/-- The MessageTypes that `P_MSG_TYPE_MAP` gives to the four codes, in code order. -/
def mappedTypes (cfg : Config) : List MsgType := msgCodes.filterMap (msgTypeOf cfg)

/-- R253 item 1: exactly one code maps to Response. -/
def oneResponseCode (cfg : Config) : Bool := (mappedTypes cfg).count .response == 1

/-- R253 item 2: no two codes map to the same MessageType. -/
def typesDistinct (cfg : Config) : Bool := decide (mappedTypes cfg).Nodup

/-- R253 item 3: every known ID in `0xE0..0xEF` is RO. -/
def metersReadOnly (cfg : Config) : Bool :=
  meterIds.all fun c =>
    match lookup cfg c with
    | some d => d.access == .ro
    | none => true

/-- R253 item 4: each enumerated name lies in its category's range (42_component_registry.md R141). -/
def namesInRange (cfg : Config) : Bool :=
  categoryOf cfg.idCompThreshold == some .compressor &&
  categoryOf cfg.idMeterInputLevel == some .metersStatus &&
  categoryOf cfg.idDeviceId == some .serviceIdentification &&
  categoryOf cfg.idFirmwareVersion == some .serviceIdentification

/-- R253 item 5: the two identity IDs differ. -/
def identitiesDistinct (cfg : Config) : Bool := cfg.idDeviceId != cfg.idFirmwareVersion

/-- The first condition of 70_reset_and_hazards.md R253 that a configuration breaks; `none` for a
configuration the spec accepts. -/
def configProblem (cfg : Config) : Option ConfigProblem :=
  if !oneResponseCode cfg then some .responseCode
  else if !typesDistinct cfg then some .duplicateType
  else if !metersReadOnly cfg then some .meterAccess
  else if !namesInRange cfg then some .nameRange
  else if !identitiesDistinct cfg then some .identityClash
  else none

end Sys2Proof.Machine
end

