-- ==== Sys2Proof/Machine/SeqFile.lean ====
section
/-! DEFINITION. The sequence counter file `S.seq` (10_state.md R24): four 5-bit entries, one per
SystemID code. -/

namespace Sys2Proof.Machine

/-- `S.seq[0..3]` (10_state.md R20, R24). -/
abbrev SeqFile := Vector Seq 4

/-- `S.seq[i]` (00_scope.md R9). -/
def seqGet (f : SeqFile) (i : SysId) : Seq := f[i.toNat]'(i.isLt)

/-- `S.seq[i] <- v` (00_scope.md R9). -/
def seqSet (f : SeqFile) (i : SysId) (v : Seq) : SeqFile := f.set i.toNat v i.isLt

/-- The counter file after reset: `0` each, except the own entry, which is `P_SEQ_INIT`
(10_state.md R30). -/
def seqAtReset (own : SysId) (init : Seq) : SeqFile :=
  seqSet (Vector.replicate 4 0#5) own init

end Sys2Proof.Machine
end

