-- ==== Sys2Proof/Machine/State.lean ====
section
/-! DEFINITION. The state of the core as plain data (10_state.md R20 to R30), the inputs its
environment offers, the observation of a run (70_reset_and_hazards.md R260), and the ways a step can
stop (60_exceptions.md R231). -/

namespace Sys2Proof.Machine

/-- A call to a collaborator (10_state.md R27). -/
inductive Call where
  | get (comp : CompId)
  | set (comp : CompId) (value : Byte)
  | push (comp : CompId) (value : Byte)
  | deliver (p : Packet)
  | idDevice
  | idFirmware
  deriving DecidableEq, Repr

/-- The answer to a call (10_state.md R27). -/
inductive Answer where
  /-- Of `get`. -/
  | valueOk (value : Byte) (ok : Bool)
  /-- Of `set` and `push`. -/
  | ok (ok : Bool)
  /-- Of `id_device` and `id_firmware`. -/
  | value (value : Byte)
  /-- Of `deliver`, which has no answer. -/
  | nothing
  deriving DecidableEq, Repr

/-- One completed call of a run (70_reset_and_hazards.md R260). -/
structure CallRecord where
  call   : Call
  answer : Answer
  deriving DecidableEq, Repr

/-- One transaction of a run: inbound word, result code, optional outbound word
(70_reset_and_hazards.md R260). -/
structure Observation where
  inbound  : Word
  result   : ResultCode
  outbound : Option Word
  deriving DecidableEq, Repr

/-- One collaborator port as the core sees it (10_state.md R27): the answers it has given and the core
has not yet taken, in the order of the calls they answer, and how many calls on it a reset has
abandoned whose answers, the first of `queue`, are to be ignored whenever they come
(70_reset_and_hazards.md R251; log 8). The answers are the draws of 00_scope.md R12: any list may stand
here (log 4). -/
structure Port (α : Type) where
  abandoned : Nat
  queue     : List α
  deriving DecidableEq, Repr

/-- A port with these answers and no abandoned call. -/
def Port.of {α : Type} (answers : List α) : Port α := { abandoned := 0, queue := answers }

/-- The ports of the collaborators that answer (10_state.md R27). -/
structure Answers where
  get        : Port (Byte × Bool)
  set        : Port Bool
  push       : Port Bool
  idDevice   : Port Byte
  idFirmware : Port Byte
  deriving DecidableEq, Repr

/-- A request of the host, served by the next step (70_reset_and_hazards.md R250, R253, R254; log 7). -/
inductive Control where
  /-- Reset with the configuration unchanged. -/
  | reset
  /-- Reset, with this configuration applied while reset is asserted (R254). -/
  | resetWith (cfg : Config)
  /-- A configuration presented during a run (R253). -/
  | reconfigure (cfg : Config)
  deriving DecidableEq, Repr

/-- `S.stage` (10_state.md R22). `busy i` holds the in-flight transaction (10_state.md R29): the
accepted word is `encode i`, and the transaction has passed its gates and waits for the answer to
the call of its handler. -/
inductive Stage where
  | idle
  | busy (i : Instr)
  deriving DecidableEq, Repr

/-- The core with its configuration inputs, its environment's inputs and the run so far. -/
structure State where
  /-- The configuration inputs (10_state.md R28); static for a run (log 1). -/
  cfg     : Config
  /-- `S.seq[0..3]` (10_state.md R24). -/
  seq     : SeqFile
  /-- `S.stage` and the in-flight transaction (10_state.md R22, R29). -/
  stage   : Stage
  /-- The result the last step presented on `res`, if it did (10_state.md R26; log 13). -/
  res     : Option ResultCode
  /-- The word the last step presented on `tx`, if it did (10_state.md R26; log 13). -/
  tx      : Option Word
  /-- The words the transport offers at `rx`, in the order they will be accepted (10_state.md R26). -/
  rx      : List Word
  /-- The answers of the collaborators (10_state.md R27; log 4). -/
  answers : Answers
  /-- The host's pending request (70_reset_and_hazards.md R250; log 7). -/
  control : Option Control
  /-- The transactions of the run, oldest first (70_reset_and_hazards.md R260; log 12). -/
  history : List Observation
  /-- The completed calls of the run, oldest first (70_reset_and_hazards.md R260; log 12). -/
  calls   : List CallRecord
  deriving DecidableEq, Repr

/-- "Fault: none. The core has no condition in which it traps or has no defined next state for an
accepted word" (60_exceptions.md R231). -/
inductive Fault where
  deriving DecidableEq, Repr

/-- Why the model gives a step no meaning. -/
inductive Refusal where
  /-- Raised by an arm of `exec` whose instruction has no meaning yet. Safe. No arm raises it. -/
  | notModelled (mnemonic : String)
  /-- Raised by `exec` and `step` under a configuration that 70_reset_and_hazards.md R253 refuses.
  Safe: the spec gives such a run no meaning (60_exceptions.md R231). -/
  | configRefused (e : ConfigProblem)
  /-- Raised by `step` when the configuration would change during a run
  (70_reset_and_hazards.md R253). Safe: the spec gives such a run no meaning. -/
  | configChanged
  deriving DecidableEq, Repr

/-- No answer offered on any port, and no call abandoned. -/
def Answers.none : Answers :=
  { get := .of [], set := .of [], push := .of [], idDevice := .of [], idFirmware := .of [] }

/-- The core right after reset under a configuration, with nothing offered to it
(10_state.md R30, 70_reset_and_hazards.md R250). -/
def State.afterReset (cfg : Config) : State :=
  { cfg := cfg
    seq := seqAtReset cfg.ownSystemId cfg.seqInit
    stage := .idle
    res := none
    tx := none
    rx := []
    answers := Answers.none
    control := none
    history := []
    calls := [] }

/-- The machine right after reset under the decided configuration (10_state.md R30; log 2). -/
def State.reset : State := State.afterReset decidedConfig

end Sys2Proof.Machine
end

