-- ==== Sys2Proof/Machine/Ops.lean ====
section
/-! DEFINITION. The operations the handlers share: emission, the sequence counter, the two response
builders (44_response_encoder.md), the collaborator ports (10_state.md R27), and the transaction with
its gates (43_command_dispatcher.md R160). The core has no trap to take and none to return from
(60_exceptions.md R222, R223). -/

namespace Sys2Proof.Machine

/-- `S.seq[P_OWN_SYSTEM_ID]` (10_state.md R24). -/
def ownSeq (s : State) : Seq := seqGet s.seq s.cfg.ownSystemId

/-- The `res` port as its 3-bit bus, `none` while no result is presented (10_state.md R26). -/
def resBus (s : State) : Option (BitVec 3) := s.res.map resultIndex

/-- Nothing presented on `res` and `tx`: each is presented exactly once
(44_response_encoder.md R206; log 13). -/
def clearOutputs (s : State) : State := { s with res := none, tx := none }

/-- Acceptance of an instruction's word at `rx`: `S.stage <- BUSY` (43_command_dispatcher.md R160). -/
def accept (i : Instr) (s : State) : State := { s with stage := .busy i, res := none, tx := none }

/-- `emit(res, out)`: ends the transaction of packet `p` (00_scope.md R9, 10_state.md R22). -/
def emit (p : Packet) (r : ResultCode) (out : Option Word) (s : State) : State :=
  { s with stage := .idle, res := some r, tx := out
           history := s.history ++ [⟨encodePacket p, r, out⟩] }

/-- NEXT_SEQ (44_response_encoder.md R203): the value before the increment is the one sent. -/
def nextSeq (s : State) : Seq × State :=
  (ownSeq s, { s with seq := seqSet s.seq s.cfg.ownSystemId (ownSeq s + 1#5) })

/-- The common body of BUILD_RESULT and BUILD_VALUE (44_response_encoder.md R200, R201). -/
def buildResponse (comp : CompId) (v : Byte) (s : State) : Word × State :=
  let q := nextSeq s
  (finish s.cfg { ver := s.cfg.respVersion, sys := s.cfg.ownSystemId, seq := q.1, comp := comp,
                  msg := respCode s.cfg, val := v, chk := 0#4 }, q.2)

/-- BUILD_RESULT (44_response_encoder.md R200). -/
def buildResult (p : Packet) (r : ResultCode) (s : State) : Word × State :=
  buildResponse p.comp (resultWire s.cfg r) s

/-- BUILD_VALUE (44_response_encoder.md R201). -/
def buildValue (c : CompId) (v : Byte) (s : State) : Word × State :=
  buildResponse c v s

/-- `emit(r, BUILD_RESULT(p, r))` (43_command_dispatcher.md R160). -/
def replyResult (p : Packet) (r : ResultCode) (s : State) : State :=
  let b := buildResult p r s
  emit p r (some b.1) b.2

/-- `emit(DONE, BUILD_VALUE(p.comp, v))` (43_command_dispatcher.md R170 to R172, R180). -/
def replyValue (p : Packet) (v : Byte) (s : State) : State :=
  let b := buildValue p.comp v s
  emit p .done (some b.1) b.2

/-- A completed call, noted in the run's list of calls (70_reset_and_hazards.md R260). -/
def record (c : Call) (a : Answer) (s : State) : State := { s with calls := s.calls ++ [⟨c, a⟩] }

/-- The answers of a port that answer calls which no reset has abandoned (70_reset_and_hazards.md
R251). -/
def Port.live {α : Type} (p : Port α) : List α := p.queue.drop p.abandoned

/-- The call on a port that waits for its answer is abandoned: its answer is ignored when it comes
(70_reset_and_hazards.md R251). -/
def Port.abandon {α : Type} (p : Port α) : Port α := { p with abandoned := p.abandoned + 1 }

/-- `Call get(comp)`; `none` while the parameter store has not answered (10_state.md R27). -/
def takeGet (comp : CompId) (s : State) : Option (Byte × Bool × State) :=
  match s.answers.get.live with
  | [] => none
  | (v, ok) :: rest =>
    some (v, ok, record (.get comp) (.valueOk v ok) { s with answers := { s.answers with get := .of rest } })

/-- `Call set(comp, value)`; `none` while the parameter store has not answered (10_state.md R27). -/
def takeSet (comp : CompId) (value : Byte) (s : State) : Option (Bool × State) :=
  match s.answers.set.live with
  | [] => none
  | ok :: rest =>
    some (ok, record (.set comp value) (.ok ok) { s with answers := { s.answers with set := .of rest } })

/-- `Call push(comp, value)`; `none` while the update sink has not answered (10_state.md R27). -/
def takePush (comp : CompId) (value : Byte) (s : State) : Option (Bool × State) :=
  match s.answers.push.live with
  | [] => none
  | ok :: rest =>
    some (ok, record (.push comp value) (.ok ok) { s with answers := { s.answers with push := .of rest } })

/-- `Call id_device()`; `none` while the identity provider has not answered (10_state.md R27). -/
def takeIdDevice (s : State) : Option (Byte × State) :=
  match s.answers.idDevice.live with
  | [] => none
  | v :: rest =>
    some (v, record .idDevice (.value v) { s with answers := { s.answers with idDevice := .of rest } })

/-- `Call id_firmware()`; `none` while the identity provider has not answered (10_state.md R27). -/
def takeIdFirmware (s : State) : Option (Byte × State) :=
  match s.answers.idFirmware.live with
  | [] => none
  | v :: rest =>
    some (v, record .idFirmware (.value v)
      { s with answers := { s.answers with idFirmware := .of rest } })

/-- The call that a handler makes once its checks have passed, if it waits for one's answer
(43_command_dispatcher.md R170 to R180). -/
def handlerCall (cfg : Config) : Instr → Option Call
  | .readDeviceId _ => some .idDevice
  | .readFirmwareVersion _ => some .idFirmware
  | .readValue p => some (.get p.comp)
  | .setValue p => some (.set p.comp p.val)
  | .updateValue p => some (.push p.comp p.val)
  | .responseIn _ => none
  | .identifyDevice p => some (if p.comp = cfg.idFirmwareVersion then .idFirmware else .idDevice)
  | .unassignedMessage _ => none

/-- The collaborator call that waits for its answer (10_state.md R29, R30). -/
def outstanding (s : State) : Option Call :=
  match s.stage with
  | .idle => none
  | .busy i => handlerCall s.cfg i

/-- The collaborator of a call has an answer for the core to take (10_state.md R27). -/
def answerReady (a : Answers) : Call → Bool
  | .get _ => !a.get.live.isEmpty
  | .set _ _ => !a.set.live.isEmpty
  | .push _ _ => !a.push.live.isEmpty
  | .deliver _ => true
  | .idDevice => !a.idDevice.live.isEmpty
  | .idFirmware => !a.idFirmware.live.isEmpty

/-- The ports once a call is abandoned: the answer to it is ignored, whether it has come by then or
comes later (70_reset_and_hazards.md R251; log 8). -/
def ignoreAnswer (a : Answers) : Call → Answers
  | .get _ => { a with get := a.get.abandon }
  | .set _ _ => { a with set := a.set.abandon }
  | .push _ _ => { a with push := a.push.abandon }
  | .deliver _ => a
  | .idDevice => { a with idDevice := a.idDevice.abandon }
  | .idFirmware => { a with idFirmware := a.idFirmware.abandon }

/-- The gates of DISPATCH in their order: version, checksum, registry (43_command_dispatcher.md
R160, R162, R163, R164). `handler` runs on the descriptor when all have passed. -/
def gates (p : Packet) (handler : Descriptor → State → State) (s : State) : State :=
  if !versionSupported s.cfg p.ver then replyResult p .unsupported s
  else if !chkVerify s.cfg (encodePacket p) then emit p .crcError none s
  else
    match lookup s.cfg p.comp with
    | none => replyResult p .unknownCommand s
    | some d => handler d s

/-- One transaction from the acceptance of its word (43_command_dispatcher.md R160). A refused
configuration gives it no meaning (70_reset_and_hazards.md R253); a word offered while BUSY is held,
"neither accepted nor dropped" (70_reset_and_hazards.md R256; log 16). -/
def transact (i : Instr) (handler : Descriptor → State → State) (s : State) :
    Host.Outcome State Fault Refusal :=
  match configProblem s.cfg with
  | some e => .refused (.configRefused e)
  | none =>
    match s.stage with
    | .busy _ => .next s
    | .idle => .next (gates i.packet handler (accept i s))

end Sys2Proof.Machine
end

