-- ==== Sys2Proof/Machine/OtherHandlers.lean ====
section
/-! DEFINITION. RESPONSE_IN, IDENTIFY_DEVICE and UNASSIGNED_MESSAGE (43_command_dispatcher.md R179
to R181). -/

namespace Sys2Proof.Machine

/-- `Call deliver(p)`, which has no answer, and `emit(DONE, None)` (43_command_dispatcher.md R179). -/
def callResponseIn (p : Packet) (s : State) : State :=
  emit p .done none (record (.deliver p) .nothing s)

/-- RESPONSE_IN (43_command_dispatcher.md R179). -/
def execResponseIn (p : Packet) (s : State) : Host.Outcome State Fault Refusal :=
  transact (.responseIn p) (fun _ t => callResponseIn p t) s

/-- The identity call and the value response (43_command_dispatcher.md R180). -/
def callIdentifyDevice (p : Packet) (s : State) : State :=
  match (if p.comp = s.cfg.idFirmwareVersion then takeIdFirmware s else takeIdDevice s) with
  | none => s
  | some (v, s') => replyValue p v s'

/-- IDENTIFY_DEVICE: the access mode is not checked (43_command_dispatcher.md R180). -/
def execIdentifyDevice (p : Packet) (s : State) : Host.Outcome State Fault Refusal :=
  transact (.identifyDevice p) (fun _ t => callIdentifyDevice p t) s

/-- `emit(UNKNOWN_COMMAND, BUILD_RESULT(p, UNKNOWN_COMMAND))` (43_command_dispatcher.md R181). -/
def answerUnassigned (p : Packet) (s : State) : State := replyResult p .unknownCommand s

/-- UNASSIGNED_MESSAGE (43_command_dispatcher.md R181). -/
def execUnassignedMessage (p : Packet) (s : State) : Host.Outcome State Fault Refusal :=
  transact (.unassignedMessage p) (fun _ t => answerUnassigned p t) s

end Sys2Proof.Machine
end

