-- ==== Sys2Proof/Machine/ReadHandlers.lean ====
section
/-! DEFINITION. The ReadValue handlers (43_command_dispatcher.md section 3): READ_DEVICE_ID,
READ_FIRMWARE_VERSION, READ_VALUE. For each handler, `call…` is the part from its collaborator call
on, which a BUSY core takes up again when it is answered (10_state.md R27). -/

namespace Sys2Proof.Machine

/-- `Call id_device()` and the value response (43_command_dispatcher.md R171). -/
def callReadDeviceId (p : Packet) (s : State) : State :=
  match takeIdDevice s with
  | none => s
  | some (v, s') => replyValue p v s'

/-- READ_DEVICE_ID (43_command_dispatcher.md R171, R173). -/
def execReadDeviceId (p : Packet) (s : State) : Host.Outcome State Fault Refusal :=
  transact (.readDeviceId p) (fun d t =>
    if d.access = .wo then replyResult p .unsupported t else callReadDeviceId p t) s

/-- `Call id_firmware()` and the value response (43_command_dispatcher.md R172). -/
def callReadFirmwareVersion (p : Packet) (s : State) : State :=
  match takeIdFirmware s with
  | none => s
  | some (v, s') => replyValue p v s'

/-- READ_FIRMWARE_VERSION (43_command_dispatcher.md R172, R173). -/
def execReadFirmwareVersion (p : Packet) (s : State) : Host.Outcome State Fault Refusal :=
  transact (.readFirmwareVersion p) (fun d t =>
    if d.access = .wo then replyResult p .unsupported t else callReadFirmwareVersion p t) s

/-- `Call get(comp)` and the response to its answer (43_command_dispatcher.md R170). -/
def callReadValue (p : Packet) (s : State) : State :=
  match takeGet p.comp s with
  | none => s
  | some (v, ok, s') => if ok then replyValue p v s' else replyResult p .failure s'

/-- READ_VALUE (43_command_dispatcher.md R170, R173). -/
def execReadValue (p : Packet) (s : State) : Host.Outcome State Fault Refusal :=
  transact (.readValue p) (fun d t =>
    if d.access = .wo then replyResult p .unsupported t else callReadValue p t) s

end Sys2Proof.Machine
end

