-- ==== Sys2Proof/Machine/WriteHandlers.lean ====
section
/-! DEFINITION. SET_VALUE and UPDATE_VALUE (43_command_dispatcher.md R175 to R178). -/

namespace Sys2Proof.Machine

/-- `Call set(comp, val)` and the response to its answer (43_command_dispatcher.md R175). -/
def callSetValue (p : Packet) (s : State) : State :=
  match takeSet p.comp p.val s with
  | none => s
  | some (ok, s') => if ok then replyResult p .done s' else replyResult p .failure s'

/-- SET_VALUE: the read-only check, then the domain check, then the call
(43_command_dispatcher.md R175, R176, R177). -/
def execSetValue (p : Packet) (s : State) : Host.Outcome State Fault Refusal :=
  transact (.setValue p) (fun d t =>
    if d.access = .ro then replyResult p .invalidValue t
    else if !inDomain d.domain p.val then replyResult p .invalidValue t
    else callSetValue p t) s

/-- `Call push(comp, val)` and the response to its answer (43_command_dispatcher.md R178). -/
def callUpdateValue (p : Packet) (s : State) : State :=
  match takePush p.comp p.val s with
  | none => s
  | some (ok, s') => if ok then replyResult p .done s' else replyResult p .failure s'

/-- UPDATE_VALUE: no access or domain check (43_command_dispatcher.md R178). -/
def execUpdateValue (p : Packet) (s : State) : Host.Outcome State Fault Refusal :=
  transact (.updateValue p) (fun _ t => callUpdateValue p t) s

end Sys2Proof.Machine
end

