-- ==== Sys2Proof/Machine/Control.lean ====
section
/-! DEFINITION. What a step does besides running a newly accepted word: a reset or configuration
request of the host (70_reset_and_hazards.md R250 to R254), and a transaction that takes up its call
again (10_state.md R27, 70_reset_and_hazards.md R258). -/

namespace Sys2Proof.Machine

/-- Reset under a configuration (70_reset_and_hazards.md R250, R251): every piece of state at its
reset value, the in-flight transaction abandoned, the answer to its call ignored when it comes. The
words the transport still offers, and the answers to other calls, belong to the environment and stay
(log 8). -/
def resetCore (cfg : Config) (s : State) : State :=
  { State.afterReset cfg with
      rx := s.rx
      answers :=
        match outstanding s with
        | none => s.answers
        | some c => ignoreAnswer s.answers c }

/-- A host request (70_reset_and_hazards.md R250, R253, R254). DESIGN CHOICE (log 7, log 18): a
configuration presented during a run that is the one in force changes nothing, and any other is
refused. Configurations are compared as data: one that means the same sets and functions as the one in
force, but lists its versions, registry departures or domain ranges in another way, counts as another
and is refused. -/
def applyControl (c : Control) (s : State) : Host.Outcome State Fault Refusal :=
  match c with
  | .reset => .next (resetCore s.cfg s)
  | .resetWith cfg => .next (resetCore cfg s)
  | .reconfigure cfg =>
    if cfg = s.cfg then .next { s with control := none } else .refused .configChanged

/-- A BUSY transaction from its call on: it completes if the answer is there, and otherwise stays as
it is (70_reset_and_hazards.md R258). -/
def resume (i : Instr) (s : State) : State :=
  match i with
  | .readDeviceId p => callReadDeviceId p s
  | .readFirmwareVersion p => callReadFirmwareVersion p s
  | .readValue p => callReadValue p s
  | .setValue p => callSetValue p s
  | .updateValue p => callUpdateValue p s
  | .responseIn p => callResponseIn p s
  | .identifyDevice p => callIdentifyDevice p s
  | .unassignedMessage p => answerUnassigned p s

/-- The word the transport offers next, and the state without it (10_state.md R26). -/
def fetch (s : State) : Option (Word × State) :=
  match s.rx with
  | [] => none
  | w :: ws => some (w, { s with rx := ws })

/-- `P_WIRE_BYTE_ORDER` aside, an instruction's bits are its word: bits at `nbits` and above are 0
(30_encoding.md R84). -/
def wordOfBits (nbits w : Nat) : Word := BitVec.ofNat 32 (w % 2 ^ nbits)

end Sys2Proof.Machine
end

