-- ==== Sys2Proof/Machine/Dispatch.lean ====
section
/-! DEFINITION. One arm per row of spec/opcode_table.json, in the table's order. -/

namespace Sys2Proof.Machine

def exec (i : Instr) (s : State) : Host.Outcome State Fault Refusal :=
  match i with
  | .readDeviceId p => Sys2Proof.Machine.execReadDeviceId p s
  | .readFirmwareVersion p => Sys2Proof.Machine.execReadFirmwareVersion p s
  | .readValue p => Sys2Proof.Machine.execReadValue p s
  | .setValue p => Sys2Proof.Machine.execSetValue p s
  | .updateValue p => Sys2Proof.Machine.execUpdateValue p s
  | .responseIn p => Sys2Proof.Machine.execResponseIn p s
  | .identifyDevice p => Sys2Proof.Machine.execIdentifyDevice p s
  | .unassignedMessage p => Sys2Proof.Machine.execUnassignedMessage p s

end Sys2Proof.Machine
end

