-- ==== Sys2Proof/Machine/Step.lean ====
section
/-! DEFINITION. One step of the core with its environment's inputs: a host request, or the next part
of the transaction in flight, or the acceptance of the next word (10_state.md R22,
70_reset_and_hazards.md R256; log 6). -/

namespace Sys2Proof.Machine

/-- One step. A host request comes first. Under a refused configuration nothing runs
(60_exceptions.md R231). A BUSY core takes no word; an IDLE core accepts the next word offered, and
with none offered presents nothing (10_state.md R26). -/
def step (s : State) : Host.Outcome State Fault Refusal :=
  match s.control with
  | some c => applyControl c (clearOutputs s)
  | none =>
    match configProblem s.cfg with
    | some e => .refused (.configRefused e)
    | none =>
      match s.stage with
      | .busy i => .next (resume i (clearOutputs s))
      | .idle =>
        match fetch s with
        | none => .next (clearOutputs s)
        | some (w, s') => exec (decode s.cfg w) s'

/-- `s` with the instruction whose bits are `w` as the word an IDLE core accepts next (log 19): the
word is put before the others at `rx`, no host request is pending and no transaction is in flight. -/
def State.withFetchWord (s : State) (nbits w : Nat) : State :=
  { s with rx := wordOfBits nbits w :: s.rx, stage := .idle, control := none }

end Sys2Proof.Machine
end

