-- ==== Sys2Proof/Machine/PacketText.lean ====
section
/-! DEFINITION. The packet notation of 30_encoding.md R85 as data, and the word it stands for under a
configuration. The spelling of numbers as decimal or hexadecimal digits is left out (log 23). -/

namespace Sys2Proof.Machine

/-- `<TYPE>` (30_encoding.md R85): READ, SET, UPDATE, RESP, IDENT. -/
inductive TextType where
  | read | set | update | resp | ident
  deriving DecidableEq, Repr

/-- `<sys>`: a number or a role name (30_encoding.md R85). -/
inductive TextSys where
  | number (n : Nat)
  | role (r : Role)
  deriving DecidableEq, Repr

/-- `<comp>`: a number or one of the enumerated names (30_encoding.md R85). -/
inductive TextComp where
  | number (n : Nat)
  | named (n : ParamName)
  deriving DecidableEq, Repr

/-- `<TYPE> v=<ver> sys=<sys> seq=<seq> comp=<comp> val=<val> [chk=<k>]` (30_encoding.md R85). -/
structure PacketText where
  type : TextType
  ver  : Nat
  sys  : TextSys
  seq  : Nat
  comp : TextComp
  val  : Option Nat
  chk  : Option Nat
  deriving DecidableEq, Repr

/-- The message type that `<TYPE>` names (30_encoding.md R85). -/
def textMsgType : TextType → MsgType
  | .read => .readValue
  | .set => .setValue
  | .update => .updateValue
  | .resp => .response
  | .ident => .identifyDevice

/-- The number that `<sys>` stands for (30_encoding.md R85, R73). -/
def textSys (cfg : Config) : TextSys → Nat
  | .number n => n
  | .role r => (roleCode cfg r).toNat

/-- The number that `<comp>` stands for; the word `Generic` is no name of R141
(30_encoding.md R85). -/
def textComp (cfg : Config) : TextComp → Option Nat
  | .number n => some n
  | .named n => (namedId cfg n).map BitVec.toNat

/-- The word of a packet text: `val` omitted is 0, `chk` omitted is the correct checksum, a field too
wide is masked (30_encoding.md R85). `none` where the type has no code under the map, or the name
no ID. -/
def assemble (cfg : Config) (t : PacketText) : Option Word :=
  match codeOf cfg (textMsgType t.type), textComp cfg t.comp with
  | some m, some c =>
    let f : WidePacket :=
      { ver := t.ver, sys := textSys cfg t.sys, seq := t.seq, comp := c, msg := m.toNat,
        val := t.val.getD 0, chk := t.chk.getD 0 }
    match t.chk with
    | some _ => some (encodeWide f)
    | none => some (finish cfg (truncPacket f))
  | _, _ => none

end Sys2Proof.Machine
end

