-- ==== Sys2Proof/Safety.lean ====
section
/-! DEFINITION. The terms the statements are written in: when a transaction can start, what a reply
and a silent end look like, a stuck core and an ended run, and the invariant of a run. -/

namespace Sys2Proof.Machine

/-- The core can accept a word: its configuration is accepted (70_reset_and_hazards.md R253) and it
is IDLE (10_state.md R22). -/
abbrev Ready (s : State) : Prop := configProblem s.cfg = none ∧ s.stage = .idle

/-- A packet passes the version, checksum and registry gates and its ComponentID has descriptor `d`
(43_command_dispatcher.md R160). -/
abbrev GatesPass (cfg : Config) (p : Packet) (d : Descriptor) : Prop :=
  versionSupported cfg p.ver = true ∧ chkVerify cfg (encodePacket p) = true ∧
    lookup cfg p.comp = some d

/-- The checks of a handler itself let it go on to its call (43_command_dispatcher.md R173, R176,
R177). -/
def checksPass (i : Instr) (d : Descriptor) : Bool :=
  match i with
  | .readDeviceId _ => d.access != .wo
  | .readFirmwareVersion _ => d.access != .wo
  | .readValue _ => d.access != .wo
  | .setValue p => d.access != .ro && inDomain d.domain p.val
  | .updateValue _ => true
  | .responseIn _ => true
  | .identifyDevice _ => true
  | .unassignedMessage _ => true

/-- A word that this node built as a response with sequence number `q` (44_response_encoder.md R200,
R201, R202). -/
structure IsResponse (cfg : Config) (q : Seq) (w : Word) : Prop where
  ver : (decodePacket w).ver = cfg.respVersion
  sys : (decodePacket w).sys = cfg.ownSystemId
  seq : (decodePacket w).seq = q
  msg : msgTypeOf cfg (decodePacket w).msg = some .response
  chk : chkVerify cfg w = true

/-- What no transaction changes: the configuration, the words still offered, the host's request, and
the counter entries of other SystemIDs (10_state.md R24, R28). -/
structure Kept (s t : State) : Prop where
  cfg     : t.cfg = s.cfg
  rx      : t.rx = s.rx
  control : t.control = s.control
  others  : ∀ j : SysId, j ≠ s.cfg.ownSystemId → seqGet t.seq j = seqGet s.seq j

/-- From `s`, the transaction of packet `p` ended in `t` with result `r` and a response that carries
`p.comp` and `v`; it completed the calls `made` and advanced the own counter by one mod 32
(43_command_dispatcher.md R184, 44_response_encoder.md R200 to R203). -/
structure Replied (s t : State) (p : Packet) (r : ResultCode) (v : Byte)
    (made : List CallRecord) : Prop where
  kept  : Kept s t
  stage : t.stage = .idle
  res   : t.res = some r
  word  : ∃ w, t.tx = some w ∧ IsResponse s.cfg (ownSeq s) w ∧
            (decodePacket w).comp = p.comp ∧ (decodePacket w).val = v ∧
            t.history = s.history ++ [⟨encodePacket p, r, some w⟩]
  own   : (ownSeq t).toNat = ((ownSeq s).toNat + 1) % 32
  calls : t.calls = s.calls ++ made

/-- From `s`, the transaction of packet `p` ended in `t` with result `r`, no outbound word and no
counter moved (43_command_dispatcher.md R163, R179, R184). -/
structure EndedSilently (s t : State) (p : Packet) (r : ResultCode)
    (made : List CallRecord) : Prop where
  kept    : Kept s t
  stage   : t.stage = .idle
  res     : t.res = some r
  tx      : t.tx = none
  seq     : t.seq = s.seq
  history : t.history = s.history ++ [⟨encodePacket p, r, none⟩]
  calls   : t.calls = s.calls ++ made

/-- A run has ended: the core is IDLE and the transport offers no further word
(70_reset_and_hazards.md R260). -/
def runEnded (s : State) : Bool := s.stage == .idle && s.rx.isEmpty

/-- The core waits for an answer that is not there (70_reset_and_hazards.md R258). -/
def waiting (s : State) : Bool :=
  match outstanding s with
  | some c => !answerReady s.answers c
  | none => false

/-- `k` steps, stopping at the first step without a next state: `Host.Core.run` of this machine
(Sys2Proof/Laws/Run.lean). -/
def runSteps : Nat → State → Host.Outcome State Fault Refusal
  | 0, s => .next s
  | k + 1, s =>
    match step s with
    | .next t => runSteps k t
    | .fault r => .fault r
    | .refused r => .refused r

/-- The outbound words of the run, in the order they left (20_memory.md R58). -/
def outboundWords (s : State) : List Word := s.history.filterMap Observation.outbound

/-- The ports with the answers alone that answer calls no reset has abandoned: all that a transaction
can depend on (70_reset_and_hazards.md R251). -/
def liveAnswers (a : Answers) : Answers :=
  { get := .of a.get.live, set := .of a.set.live, push := .of a.push.live
    idDevice := .of a.idDevice.live, idFirmware := .of a.idFirmware.live }

/-- The ports without the answer that a call would take next. -/
def withoutNext (a : Answers) : Call → Answers
  | .get _ => { a with get := .of a.get.live.tail }
  | .set _ _ => { a with set := .of a.set.live.tail }
  | .push _ _ => { a with push := .of a.push.live.tail }
  | .deliver _ => a
  | .idDevice => { a with idDevice := .of a.idDevice.live.tail }
  | .idFirmware => { a with idFirmware := .of a.idFirmware.live.tail }

/-- Further answers come on a port. -/
def Port.arrive {α : Type} (p : Port α) (more : List α) : Port α :=
  { p with queue := p.queue ++ more }

/-- Further answers come: those in the queues of `more`, on each port after the ones already there. -/
def arrive (a more : Answers) : Answers :=
  { get := a.get.arrive more.get.queue, set := a.set.arrive more.set.queue
    push := a.push.arrive more.push.queue, idDevice := a.idDevice.arrive more.idDevice.queue
    idFirmware := a.idFirmware.arrive more.idFirmware.queue }

/-- Two states that differ at most in answers to abandoned calls. -/
structure SameButStaleAnswers (s t : State) : Prop where
  answers : liveAnswers s.answers = liveAnswers t.answers
  rest    : { s with answers := t.answers } = t

/-- The answers suffice for `n` further calls on every port. -/
def answersFor (a : Answers) (n : Nat) : Prop :=
  n ≤ a.get.live.length ∧ n ≤ a.set.live.length ∧ n ≤ a.push.live.length ∧
    n ≤ a.idDevice.live.length ∧ n ≤ a.idFirmware.live.length

/-- The invariant of a run: the counter numbers the outbound words one by one from `P_SEQ_INIT`, the
other entries hold their reset value, every outbound word is a verifiable response of this node,
errors and deliveries alone end without one, there is at most one call per transaction, and a BUSY
core waits, with nothing presented, on an instruction that passed its gates. -/
structure RunInv (s : State) : Prop where
  /-- 10_state.md R24: "The other three entries keep their reset value for the whole run." -/
  held     : ∀ j : SysId, j ≠ s.cfg.ownSystemId → seqGet s.seq j = 0#5
  /-- 44_response_encoder.md R203: NEXT_SEQ runs exactly once per outbound word. -/
  counter  : ownSeq s = s.cfg.seqInit + BitVec.ofNat 5 (outboundWords s).length
  /-- 44_response_encoder.md R200 to R203: what each outbound word carries. -/
  stamped  : ∀ (k : Nat) (w : Word), (outboundWords s)[k]? = some w →
               IsResponse s.cfg (s.cfg.seqInit + BitVec.ofNat 5 k) w
  /-- 43_command_dispatcher.md R184: the two paths without an outbound word. -/
  silent   : ∀ o ∈ s.history, (o.outbound = none ↔
               (o.result = .crcError ∨
                (o.result = .done ∧ ∃ p, decode s.cfg o.inbound = .responseIn p)))
  /-- 43_command_dispatcher.md R161: at most one collaborator call per transaction. -/
  oneCall  : s.calls.length ≤ s.history.length
  /-- 10_state.md R29, R30: a transaction in flight presents nothing yet. -/
  quiet    : s.stage ≠ .idle → s.res = none ∧ s.tx = none
  /-- 10_state.md R29: what a BUSY core holds. -/
  inFlight : ∀ i : Instr, s.stage = .busy i →
               i.wellFormed s.cfg = true ∧ (handlerCall s.cfg i).isSome = true ∧
               ∃ d, GatesPass s.cfg i.packet d ∧ checksPass i d = true

end Sys2Proof.Machine
end

