-- ==== Sys2Proof/Certificates/Slice0/Obligations.lean ====
section
/-! DEFINITION. The statements for the provers. OBLIGATIONS.json lists them with the rules they
formalise. Where a docstring names a decision D<n>, the rule it belongs to is the spec's own choice
(92_eei_decisions.md), not the source's. -/

open Sys2Proof Sys2Proof.Machine

/-! ### packet_codec -/

/-- 40_packet_codec.md R100 (D1): DECODE reads each field of any word as the number its bits are. -/
def Obligations.DecodeReadsEveryFieldOfAnyWord : Prop :=
  ∀ w : Word,
    (decodePacket w).ver.toNat = w.toNat / 2 ^ 29 % 2 ^ 3 ∧
    (decodePacket w).sys.toNat = w.toNat / 2 ^ 27 % 2 ^ 2 ∧
    (decodePacket w).seq.toNat = w.toNat / 2 ^ 22 % 2 ^ 5 ∧
    (decodePacket w).comp.toNat = w.toNat / 2 ^ 14 % 2 ^ 8 ∧
    (decodePacket w).msg.toNat = w.toNat / 2 ^ 12 % 2 ^ 2 ∧
    (decodePacket w).val.toNat = w.toNat / 2 ^ 4 % 2 ^ 8 ∧
    (decodePacket w).chk.toNat = w.toNat % 2 ^ 4

/-- The masks and shifts of 30_encoding.md R71 (derived there from R70) read the same fields, no two
masks overlap, and together they cover the word. -/
def Obligations.FieldMasksReadDisjointFieldsThatCoverTheWord : Prop :=
  (∀ (f : Field) (w : Word), fieldByMask f w = fieldOf f (decodePacket w)) ∧
  (∀ f g : Field, f ≠ g → fieldMask f &&& fieldMask g = 0#32) ∧
  (allFields.map fieldMask).foldl (· ||| ·) 0#32 = 0xFFFFFFFF#32

/-- 40_packet_codec.md R101 (D27): ENCODE keeps the low bits of each field and drops the others. -/
def Obligations.EncodeKeepsLowBitsOfEveryField : Prop :=
  ∀ f : WidePacket,
    (encodeWide f).toNat =
      f.ver % 2 ^ 3 * 2 ^ 29 + f.sys % 2 ^ 2 * 2 ^ 27 + f.seq % 2 ^ 5 * 2 ^ 22 +
      f.comp % 2 ^ 8 * 2 ^ 14 + f.msg % 2 ^ 2 * 2 ^ 12 + f.val % 2 ^ 8 * 2 ^ 4 + f.chk % 2 ^ 4

/-- 40_packet_codec.md R102: DECODE gives back every packet whose fields fit their widths, the
operand of ENCODE being natural numbers. -/
def Obligations.DecodeUndoesEncodeOfFittingFields : Prop :=
  ∀ f : WidePacket,
    f.ver < 2 ^ 3 → f.sys < 2 ^ 2 → f.seq < 2 ^ 5 → f.comp < 2 ^ 8 → f.msg < 2 ^ 2 →
    f.val < 2 ^ 8 → f.chk < 2 ^ 4 →
    (decodePacket (encodeWide f)).ver.toNat = f.ver ∧
    (decodePacket (encodeWide f)).sys.toNat = f.sys ∧
    (decodePacket (encodeWide f)).seq.toNat = f.seq ∧
    (decodePacket (encodeWide f)).comp.toNat = f.comp ∧
    (decodePacket (encodeWide f)).msg.toNat = f.msg ∧
    (decodePacket (encodeWide f)).val.toNat = f.val ∧
    (decodePacket (encodeWide f)).chk.toNat = f.chk

/-- Under every configuration each well-formed instruction decodes from its encoding, and each word
is the encoding of the well-formed instruction it decodes to: decode and encode are inverse
bijections between words and well-formed instructions (from 40_packet_codec.md R102, R103 and
30_encoding.md R82, R83). -/
def Obligations.InstructionsAndWordsAreInBijection : Prop :=
  (∀ (cfg : Config) (i : Instr), i.wellFormed cfg = true → decode cfg (encode i) = i) ∧
  (∀ (cfg : Config) (w : Word),
    (decode cfg w).wellFormed cfg = true ∧ encode (decode cfg w) = w)

/-- Under every configuration the first row of the opcode table that a version-1 word matches is the
row of the instruction the decoder reads from it (30_encoding.md R82, spec/opcode_table.json). -/
def Obligations.OpcodeTableNamesTheDecodedInstruction : Prop :=
  ∀ (cfg : Config) (w : Word), (decodePacket w).ver = 1#3 →
    (tableRow cfg w).map OpcodeRow.mnemonic = some (decode cfg w).mnemonic

/-- Words of 95_test_vectors.md decode, under the decided configuration, to the instruction and the
fields written there (E1, E3, V-DSP-13, V-DSP-23, V-DSP-25, V-DSP-15). -/
def Obligations.VectorWordsDecodeAsWritten : Prop :=
  decode decidedConfig 0x20C81281#32 = .setValue ⟨1, 0, 3, 0x20, 1, 0x28, 0x1⟩ ∧
  decode decidedConfig 0x203C0001#32 = .readDeviceId ⟨1, 0, 0, 0xF0, 0, 0x00, 0x1⟩ ∧
  decode decidedConfig 0x203C4005#32 = .readFirmwareVersion ⟨1, 0, 0, 0xF1, 0, 0x00, 0x5⟩ ∧
  decode decidedConfig 0x3278280E#32 = .updateValue ⟨1, 2, 9, 0xE0, 2, 0x80, 0xE⟩ ∧
  decode decidedConfig 0x29083006#32 = .responseIn ⟨1, 1, 4, 0x20, 3, 0x00, 0x6⟩ ∧
  decode decidedConfig 0x3FC40FF0#32 = .readValue ⟨1, 3, 31, 0x10, 0, 0xFF, 0x0⟩

/-- The byte image of a word gives the word back in either byte order, is most significant byte first
in the default order (20_memory.md R52, D23). That bytes which are not exactly four are refused by
name is the model's choice (log 20); 30_encoding.md R84 says only that every packet is 32 bits. -/
def Obligations.ByteImageGivesTheWordBack : Prop :=
  (∀ (order : ByteOrder) (w : Word), wordOfBytes order (wireBytes order w) = .ok w) ∧
  (∀ w : Word, (wireBytes .big w).map BitVec.toNat =
    [w.toNat / 2 ^ 24, w.toNat / 2 ^ 16 % 2 ^ 8, w.toNat / 2 ^ 8 % 2 ^ 8, w.toNat % 2 ^ 8]) ∧
  (∀ (order : ByteOrder) (bs : List Byte),
    (bs.length < 4 → wordOfBytes order bs = .error .incomplete) ∧
    (4 < bs.length → wordOfBytes order bs = .error .overlong))

/-! ### checksum_validator -/

/-- 41_checksum_validator.md R120 (D2): the decided code is the sum of the seven nibbles of the 28
covered bits, mod 16, under any configuration that takes NIBBLE_SUM. -/
def Obligations.NibbleSumIsTheSumOfSevenNibblesModSixteen : Prop :=
  ∀ (cfg : Config) (h : Covered), cfg.checksum = .nibbleSum →
    (checksum cfg h).toNat =
      (h.toNat / 16 ^ 6 % 16 + h.toNat / 16 ^ 5 % 16 + h.toNat / 16 ^ 4 % 16 +
       h.toNat / 16 ^ 3 % 16 + h.toNat / 16 ^ 2 % 16 + h.toNat / 16 % 16 + h.toNat % 16) % 16

/-- 41_checksum_validator.md R121: CHK_VERIFY compares the code of `w[31:4]` with `w[3:0]`. -/
def Obligations.VerifyComparesTheCodeOfTheUpperBits : Prop :=
  ∀ (cfg : Config) (w : Word),
    (chkVerify cfg w = true ↔
      (checksum cfg (BitVec.ofNat 28 (w.toNat / 16))).toNat = w.toNat % 16)

/-- What NIBBLE_SUM detects (41_checksum_validator.md R123 items 1 to 3, derived there from R120 and
R121): every single-bit error, and every error inside one nibble of the word. -/
def Obligations.NibbleSumDetectsSingleNibbleErrors : Prop :=
  ∀ (cfg : Config) (w : Word), cfg.checksum = .nibbleSum → chkVerify cfg w = true →
    (∀ k, k < 32 → chkVerify cfg (w ^^^ (1#32 <<< k)) = false) ∧
    (∀ (k : Nat) (e : BitVec 4), k < 8 → e ≠ 0#4 →
      chkVerify cfg (w ^^^ (e.setWidth 32 <<< (4 * k))) = false)

/-- What NIBBLE_SUM misses (41_checksum_validator.md R123 items 4 and 5, derived there): the same bit
of two covered nibbles flipped in opposite directions, bit 3 of two covered nibbles flipped in any
direction, and two covered nibbles swapped. -/
def Obligations.NibbleSumMissesCancellingErrors : Prop :=
  ∀ (cfg : Config) (w : Word), cfg.checksum = .nibbleSum → chkVerify cfg w = true →
    (∀ i j k : Nat, 1 ≤ i → i < j → j < 8 → k < 4 →
      (k = 3 ∨ w.getLsbD (4 * i + k) ≠ w.getLsbD (4 * j + k)) →
      chkVerify cfg (w ^^^ (1#32 <<< (4 * i + k)) ^^^ (1#32 <<< (4 * j + k))) = true) ∧
    (∀ i j : Nat, 1 ≤ i → i < j → j < 8 →
      chkVerify cfg (w ^^^
        (((w.extractLsb' (4 * i) 4 ^^^ w.extractLsb' (4 * j) 4).setWidth 32 <<< (4 * i)) |||
         ((w.extractLsb' (4 * i) 4 ^^^ w.extractLsb' (4 * j) 4).setWidth 32 <<< (4 * j)))) = true)

/-! ### Component registry and configuration -/

/-- 42_component_registry.md R140: the ranges of the category table, and the wiring the rule gives
for them. -/
def Obligations.CategoriesFollowTheRangeTable : Prop :=
  ∀ c : CompId,
    categoryOf c = some (categoryWired c) ∧
    categoryOf c = some (
      if c.toNat < 0x20 then .preamp else if c.toNat < 0x40 then .compressor
      else if c.toNat < 0x60 then .equalizer else if c.toNat < 0x80 then .effects
      else if c.toNat < 0xA0 then .modulation else if c.toNat < 0xC0 then .routing
      else if c.toNat < 0xE0 then .dynamics else if c.toNat < 0xF0 then .metersStatus
      else .serviceIdentification)

/-- The decided registry (42_component_registry.md R141, R143 to R146; D9, D10, D11, D25): no ID is
Unknown, IDs from 0xE0 on are read-only and all others read-write, every value is in the domain, and
the four named IDs carry their names. -/
def Obligations.DecidedRegistryKnowsEveryId : Prop :=
  ∀ (own : SysId) (c : CompId), ∃ d,
    lookup (decidedFor own) c = some d ∧
    categoryOf c = some d.category ∧
    d.access = (if 0xE0 ≤ c.toNat then .ro else .rw) ∧
    (∀ v : Byte, inDomain d.domain v = true) ∧
    d.name = (if c.toNat = 0x20 then .compThreshold
              else if c.toNat = 0xE0 then .meterInputLevel
              else if c.toNat = 0xF0 then .deviceId
              else if c.toNat = 0xF1 then .firmwareVersion else .generic)

/-- The access mode of every known Meters/Status ID is read-only in every configuration the spec
accepts (42_component_registry.md R144, 70_reset_and_hazards.md R253 item 3), and a SetValue to one
that passes the gates is answered INVALID_VALUE without a call (43_command_dispatcher.md R177). -/
def Obligations.MetersAreReadOnlyInEveryAcceptedConfiguration : Prop :=
  ∀ (s : State) (p : Packet) (d : Descriptor),
    Ready s → GatesPass s.cfg p d → 0xE0 ≤ p.comp.toNat → p.comp.toNat ≤ 0xEF →
    d.access = .ro ∧
    ∃ t, exec (.setValue p) s = .next t ∧ t.answers = s.answers ∧
      Replied s t p .invalidValue (resultWire s.cfg .invalidValue) []

/-- From 70_reset_and_hazards.md R253 (D30): a configuration is accepted exactly if it meets items 1 to
5 (item 6 holds by the type of `ChecksumAlg`); under a refused one neither a step nor any instruction
has a meaning, and a configuration that differs from the one in force is refused during a run. Model's
choices: item 3 is judged for the known IDs alone, so one that is Unknown in 0xE0 to 0xEF breaks
nothing, and both `step` and `exec` refuse (log 17); configurations are compared as data (log 18). -/
def Obligations.ExactlyTheStatedConfigurationsAreRefused : Prop :=
  (∀ cfg : Config, configProblem cfg = none ↔
    (∃ m, msgTypeOf cfg m = some .response ∧
      ∀ m', msgTypeOf cfg m' = some .response → m' = m) ∧
    (∀ (m m' : MsgCode) (t : MsgType),
      msgTypeOf cfg m = some t → msgTypeOf cfg m' = some t → m = m') ∧
    (∀ (c : CompId) (d : Descriptor), 0xE0 ≤ c.toNat → c.toNat ≤ 0xEF →
      lookup cfg c = some d → d.access = .ro) ∧
    (categoryOf cfg.idCompThreshold = some .compressor ∧
      categoryOf cfg.idMeterInputLevel = some .metersStatus ∧
      categoryOf cfg.idDeviceId = some .serviceIdentification ∧
      categoryOf cfg.idFirmwareVersion = some .serviceIdentification) ∧
    cfg.idDeviceId ≠ cfg.idFirmwareVersion) ∧
  (∀ (s : State) (e : ConfigProblem), configProblem s.cfg = some e →
    (s.control = none → step s = .refused (.configRefused e)) ∧
    (∀ i : Instr, exec i s = .refused (.configRefused e))) ∧
  (∀ (s : State) (cfg : Config), s.control = some (.reconfigure cfg) → cfg ≠ s.cfg →
    step s = .refused .configChanged)

/-! ### response_encoder -/

/-- 44_response_encoder.md R203 (D14) and R204: NEXT_SEQ answers the counter's value before the
increment, adds one mod 32 to the own entry, and changes nothing else. -/
def Obligations.NextSeqUsesTheCounterThenAdvancesIt : Prop :=
  ∀ s : State,
    (nextSeq s).1 = seqGet s.seq s.cfg.ownSystemId ∧
    (seqGet (nextSeq s).2.seq s.cfg.ownSystemId).toNat =
      ((seqGet s.seq s.cfg.ownSystemId).toNat + 1) % 32 ∧
    (∀ j : SysId, j ≠ s.cfg.ownSystemId → seqGet (nextSeq s).2.seq j = seqGet s.seq j) ∧
    { (nextSeq s).2 with seq := s.seq } = s

/-- FINISH (44_response_encoder.md R202) sets the checksum field alone, and its word verifies under
the same `P_CHECKSUM`, whatever function that is (41_checksum_validator.md R122). -/
def Obligations.FinishedWordsVerify : Prop :=
  ∀ (cfg : Config) (f : Packet),
    chkVerify cfg (finish cfg f) = true ∧
    { decodePacket (finish cfg f) with chk := f.chk } = f

/-- 44_response_encoder.md R200 (D5, D12, D13): the word of BUILD_RESULT carries the responder's own
header and the request's ComponentID, and the counter moves on. -/
def Obligations.BuildResultCarriesTheResultCode : Prop :=
  ∀ (s : State) (p : Packet) (r : ResultCode), configProblem s.cfg = none →
    IsResponse s.cfg (ownSeq s) (buildResult p r s).1 ∧
    (decodePacket (buildResult p r s).1).comp = p.comp ∧
    (decodePacket (buildResult p r s).1).val = resultWire s.cfg r ∧
    (buildResult p r s).2 = (nextSeq s).2

/-- 44_response_encoder.md R201 (D12, D32): the word of BUILD_VALUE carries the responder's own
header, the given ComponentID and the given value, and the counter moves on. -/
def Obligations.BuildValueCarriesTheValue : Prop :=
  ∀ (s : State) (c : CompId) (v : Byte), configProblem s.cfg = none →
    IsResponse s.cfg (ownSeq s) (buildValue c v s).1 ∧
    (decodePacket (buildValue c v s).1).comp = c ∧
    (decodePacket (buildValue c v s).1).val = v ∧
    (buildValue c v s).2 = (nextSeq s).2

/-! ### The handlers -/

/-- 43_command_dispatcher.md R171 (D16), R173: READ_DEVICE_ID with the gates passed. -/
def Obligations.ReadDeviceIdAnswersTheIdentityByte : Prop :=
  ∀ (s : State) (p : Packet) (d : Descriptor), Ready s → GatesPass s.cfg p d →
    (d.access = .wo → ∃ t, exec (.readDeviceId p) s = .next t ∧ t.answers = s.answers ∧
      Replied s t p .unsupported (resultWire s.cfg .unsupported) []) ∧
    (∀ v rest, d.access ≠ .wo → s.answers.idDevice.live = v :: rest →
      ∃ t, exec (.readDeviceId p) s = .next t ∧
        t.answers = { s.answers with idDevice := .of rest } ∧
        Replied s t p .done v [⟨.idDevice, .value v⟩])

/-- 43_command_dispatcher.md R172 (D16), R173: READ_FIRMWARE_VERSION with the gates passed. -/
def Obligations.ReadFirmwareVersionAnswersTheVersionByte : Prop :=
  ∀ (s : State) (p : Packet) (d : Descriptor), Ready s → GatesPass s.cfg p d →
    (d.access = .wo → ∃ t, exec (.readFirmwareVersion p) s = .next t ∧ t.answers = s.answers ∧
      Replied s t p .unsupported (resultWire s.cfg .unsupported) []) ∧
    (∀ v rest, d.access ≠ .wo → s.answers.idFirmware.live = v :: rest →
      ∃ t, exec (.readFirmwareVersion p) s = .next t ∧
        t.answers = { s.answers with idFirmware := .of rest } ∧
        Replied s t p .done v [⟨.idFirmware, .value v⟩])

/-- 43_command_dispatcher.md R170 (D15), R173: READ_VALUE with the gates passed. -/
def Obligations.ReadValueAnswersWhatTheStoreAnswers : Prop :=
  ∀ (s : State) (p : Packet) (d : Descriptor), Ready s → GatesPass s.cfg p d →
    (d.access = .wo → ∃ t, exec (.readValue p) s = .next t ∧ t.answers = s.answers ∧
      Replied s t p .unsupported (resultWire s.cfg .unsupported) []) ∧
    (∀ v rest, d.access ≠ .wo → s.answers.get.live = (v, true) :: rest →
      ∃ t, exec (.readValue p) s = .next t ∧ t.answers = { s.answers with get := .of rest } ∧
        Replied s t p .done v [⟨.get p.comp, .valueOk v true⟩]) ∧
    (∀ v rest, d.access ≠ .wo → s.answers.get.live = (v, false) :: rest →
      ∃ t, exec (.readValue p) s = .next t ∧ t.answers = { s.answers with get := .of rest } ∧
        Replied s t p .failure (resultWire s.cfg .failure) [⟨.get p.comp, .valueOk v false⟩])

/-- 43_command_dispatcher.md R175, R176, R177 (D26): SET_VALUE with the gates passed. A read-only ID
and a value outside the domain give the same reply and no call. -/
def Obligations.SetValueChecksThenCallsTheStore : Prop :=
  ∀ (s : State) (p : Packet) (d : Descriptor), Ready s → GatesPass s.cfg p d →
    (d.access = .ro ∨ inDomain d.domain p.val = false →
      ∃ t, exec (.setValue p) s = .next t ∧ t.answers = s.answers ∧
        Replied s t p .invalidValue (resultWire s.cfg .invalidValue) []) ∧
    (∀ rest, d.access ≠ .ro → inDomain d.domain p.val = true → s.answers.set.live = true :: rest →
      ∃ t, exec (.setValue p) s = .next t ∧ t.answers = { s.answers with set := .of rest } ∧
        Replied s t p .done (resultWire s.cfg .done) [⟨.set p.comp p.val, .ok true⟩]) ∧
    (∀ rest, d.access ≠ .ro → inDomain d.domain p.val = true → s.answers.set.live = false :: rest →
      ∃ t, exec (.setValue p) s = .next t ∧ t.answers = { s.answers with set := .of rest } ∧
        Replied s t p .failure (resultWire s.cfg .failure) [⟨.set p.comp p.val, .ok false⟩])

/-- 43_command_dispatcher.md R178 (D17): UPDATE_VALUE with the gates passed, whatever the access mode
and the domain. -/
def Obligations.UpdateValuePushesToTheSink : Prop :=
  ∀ (s : State) (p : Packet) (d : Descriptor), Ready s → GatesPass s.cfg p d →
    (∀ rest, s.answers.push.live = true :: rest →
      ∃ t, exec (.updateValue p) s = .next t ∧ t.answers = { s.answers with push := .of rest } ∧
        Replied s t p .done (resultWire s.cfg .done) [⟨.push p.comp p.val, .ok true⟩]) ∧
    (∀ rest, s.answers.push.live = false :: rest →
      ∃ t, exec (.updateValue p) s = .next t ∧ t.answers = { s.answers with push := .of rest } ∧
        Replied s t p .failure (resultWire s.cfg .failure) [⟨.push p.comp p.val, .ok false⟩])

/-- 43_command_dispatcher.md R179 (D18): RESPONSE_IN with the gates passed delivers the packet, ends
with DONE, sends nothing and moves no counter. -/
def Obligations.ResponseInDeliversAndSendsNothing : Prop :=
  ∀ (s : State) (p : Packet) (d : Descriptor), Ready s → GatesPass s.cfg p d →
    ∃ t, exec (.responseIn p) s = .next t ∧ t.answers = s.answers ∧
      EndedSilently s t p .done [⟨.deliver p, .nothing⟩]

/-- 43_command_dispatcher.md R180 (D19): IDENTIFY_DEVICE with the gates passed; the access mode is
not checked. -/
def Obligations.IdentifyDeviceSelectsTheIdentityByte : Prop :=
  ∀ (s : State) (p : Packet) (d : Descriptor), Ready s → GatesPass s.cfg p d →
    (∀ v rest, p.comp = s.cfg.idFirmwareVersion → s.answers.idFirmware.live = v :: rest →
      ∃ t, exec (.identifyDevice p) s = .next t ∧
        t.answers = { s.answers with idFirmware := .of rest } ∧
        Replied s t p .done v [⟨.idFirmware, .value v⟩]) ∧
    (∀ v rest, p.comp ≠ s.cfg.idFirmwareVersion → s.answers.idDevice.live = v :: rest →
      ∃ t, exec (.identifyDevice p) s = .next t ∧
        t.answers = { s.answers with idDevice := .of rest } ∧
        Replied s t p .done v [⟨.idDevice, .value v⟩])

/-- 43_command_dispatcher.md R181: UNASSIGNED_MESSAGE with the gates passed; no code is unassigned
under the decided map. -/
def Obligations.UnassignedMessageIsAnUnknownCommand : Prop :=
  (∀ (s : State) (p : Packet) (d : Descriptor), Ready s → GatesPass s.cfg p d →
    ∃ t, exec (.unassignedMessage p) s = .next t ∧ t.answers = s.answers ∧
      Replied s t p .unknownCommand (resultWire s.cfg .unknownCommand) []) ∧
  ∀ (own : SysId) (m : MsgCode), msgTypeOf (decidedFor own) m ≠ none

/-! ### The gates -/

/-- 43_command_dispatcher.md R162 (D7, D20, D39): an unsupported version, whatever the checksum, the
ComponentID and the handler. -/
def Obligations.UnsupportedVersionIsAnsweredBeforeAnyOtherCheck : Prop :=
  ∀ (s : State) (i : Instr), Ready s → i.packet.ver ∉ s.cfg.supportedVersions →
    ∃ t, exec i s = .next t ∧ t.answers = s.answers ∧
      Replied s t i.packet .unsupported (resultWire s.cfg .unsupported) []

/-- 43_command_dispatcher.md R163 (D8): a checksum mismatch under a supported version ends every
handler with CRC_ERROR on `res` alone. -/
def Obligations.ChecksumMismatchEndsSilently : Prop :=
  ∀ (s : State) (i : Instr), Ready s → i.packet.ver ∈ s.cfg.supportedVersions →
    chkVerify s.cfg (encode i) = false →
    ∃ t, exec i s = .next t ∧ t.answers = s.answers ∧
      EndedSilently s t i.packet .crcError []

/-- 43_command_dispatcher.md R164 (D20, D25): an Unknown ComponentID behind a supported version and
a verified checksum; under the decided registry no ComponentID is Unknown. -/
def Obligations.UnknownComponentIsAnUnknownCommand : Prop :=
  (∀ (s : State) (i : Instr), Ready s → i.packet.ver ∈ s.cfg.supportedVersions →
    chkVerify s.cfg (encode i) = true → lookup s.cfg i.packet.comp = none →
    ∃ t, exec i s = .next t ∧ t.answers = s.answers ∧
      Replied s t i.packet .unknownCommand (resultWire s.cfg .unknownCommand) []) ∧
  ∀ (own : SysId) (c : CompId), lookup (decidedFor own) c ≠ none

/-! ### Waiting, holding, resetting -/

/-- A handler whose checks pass and whose call has no answer leaves the core BUSY with that call
outstanding and everything else as it was (10_state.md R22, R27, R29), but for outputs no longer
presented. Model's choices: waiting is a next state (log 5), and outputs are presented for one step
(log 13). -/
def Obligations.UnansweredCallLeavesTheCoreBusy : Prop :=
  ∀ (s : State) (i : Instr) (d : Descriptor) (c : Call), Ready s → GatesPass s.cfg i.packet d →
    checksPass i d = true → handlerCall s.cfg i = some c → answerReady s.answers c = false →
    ∃ t, exec i s = .next t ∧ outstanding t = some c ∧
      t = { s with stage := .busy i, res := none, tx := none }

/-- From 70_reset_and_hazards.md R258 (D31): a core whose call is never answered stays BUSY through any
number of steps, takes no word and presents no result; the answer lifts it, and reset abandons it.
Model's choices: waiting is a next state equal to the one before (log 5) but for outputs no longer
presented (log 13), and the next step serves a reset request (log 7). -/
def Obligations.UnansweredCallSticksUntilAnswerOrReset : Prop :=
  ∀ (s : State) (i : Instr) (c : Call), configProblem s.cfg = none → s.stage = .busy i →
    outstanding s = some c →
    (s.control = none → answerReady s.answers c = false → ∀ n : Nat,
      runSteps (n + 1) s = .next { s with res := none, tx := none }) ∧
    (s.control = none → answerReady s.answers c = true →
      ∃ t, step s = .next t ∧ t.stage = .idle ∧ t.res.isSome = true) ∧
    (s.control = some .reset →
      ∃ t, step s = .next t ∧ t.stage = .idle ∧ t.res = none ∧ outstanding t = none)

/-- A transaction that waited ends, once its answers are there, in the very state it would have ended
in had they been there when its word was accepted: calls are synchronous (10_state.md R27), and the
time a transaction takes is not observable (10_state.md R21). -/
def Obligations.LateAnswersGiveTheSameOutcome : Prop :=
  ∀ (s b : State) (i : Instr) (a : Answers), Ready s → s.control = none →
    exec i s = .next b → b.stage ≠ .idle →
    step { b with answers := a } = exec i { s with answers := a }

/-- From 70_reset_and_hazards.md R256 (D21): a BUSY core accepts no word and drops none, until the emit
of its transaction makes it IDLE; then it accepts the first word offered. That `exec` of an instruction
on a BUSY core answers the state unchanged, outputs included, is the model's reading (log 16). -/
def Obligations.OfferedWordsAreHeldWhileBusy : Prop :=
  (∀ (s : State) (i : Instr), configProblem s.cfg = none → s.control = none → s.stage = .busy i →
    ∃ t, step s = .next t ∧ t.rx = s.rx ∧
      (t.stage = .busy i ∧ t.history = s.history ∨
       t.stage = .idle ∧ t.history.length = s.history.length + 1)) ∧
  (∀ (s : State) (i j : Instr), configProblem s.cfg = none → s.stage = .busy i →
    exec j s = .next s) ∧
  (∀ (s : State) (w : Word) (ws : List Word), Ready s → s.control = none → s.rx = w :: ws →
    ∃ t, step s = .next t ∧ t.rx = ws ∧
      (t.stage = .busy (decode s.cfg w) ∨
       ∃ r out, t.history = s.history ++ [⟨w, r, out⟩]))

/-- A step of an IDLE core with a word offered and no host request runs the instruction the word
decodes to, after taking the word off `rx`; the instruction is well formed and encodes to the word
(10_state.md R22, R26; 43_command_dispatcher.md R160). -/
def Obligations.StepRunsTheDecodedInstruction : Prop :=
  ∀ (s : State) (w : Word) (ws : List Word), Ready s → s.control = none → s.rx = w :: ws →
    step s = exec (decode s.cfg w) { s with rx := ws } ∧
    (decode s.cfg w).wellFormed s.cfg = true ∧ encode (decode s.cfg w) = w

/-- `none` at `rx` starts no transaction (10_state.md R26): only the presented outputs go. -/
def Obligations.NoOfferedWordStartsNoTransaction : Prop :=
  ∀ s : State, Ready s → s.control = none → s.rx = [] →
    step s = .next { s with res := none, tx := none }

/-- 10_state.md R30 (D29, D38): the reset values, under every configuration and in `State.reset`.
The decided `P_SEQ_INIT` is 0, so all four entries of `State.reset` are 0. -/
def Obligations.ResetLeavesTheStatedValues : Prop :=
  (∀ cfg : Config,
    seqGet (State.afterReset cfg).seq cfg.ownSystemId = cfg.seqInit ∧
    (∀ j : SysId, j ≠ cfg.ownSystemId → seqGet (State.afterReset cfg).seq j = 0#5) ∧
    (State.afterReset cfg).stage = .idle ∧ (State.afterReset cfg).res = none ∧
    (State.afterReset cfg).tx = none ∧ outstanding (State.afterReset cfg) = none ∧
    (State.afterReset cfg).cfg = cfg) ∧
  State.reset.stage = .idle ∧ State.reset.res = none ∧ State.reset.tx = none ∧
  ∀ j : SysId, seqGet State.reset.seq j = 0#5

/-- From 70_reset_and_hazards.md R250, R251 (D29): reset at any moment gives the reset values, presents
nothing and marks the answer to the abandoned call to be ignored. With `resetWith` the configuration
applied is the one given (R254). Model's choices: the next step serves the request (log 7), the words
offered and the answers to other calls stay (log 8), and the recorded observation, `history` and
`calls`, is emptied (log 12). -/
def Obligations.ResetAbandonsTheTransactionInFlight : Prop :=
  ∀ (s : State) (cfg : Config),
    (s.control = some .reset ∧ cfg = s.cfg) ∨ s.control = some (.resetWith cfg) →
    ∃ t, step s = .next t ∧ t.cfg = cfg ∧ t.stage = .idle ∧ t.res = none ∧ t.tx = none ∧
      outstanding t = none ∧ seqGet t.seq cfg.ownSystemId = cfg.seqInit ∧
      (∀ j : SysId, j ≠ cfg.ownSystemId → seqGet t.seq j = 0#5) ∧
      t.history = [] ∧ t.calls = [] ∧ t.rx = s.rx ∧ t.control = none ∧
      (outstanding s = none → t.answers = s.answers) ∧
      (∀ c, outstanding s = some c → t.answers = ignoreAnswer s.answers c)

/-! ### Over all instructions and all steps -/

/-- No instruction and no step without a reset writes the configuration (10_state.md R28) or a
counter entry of another SystemID (10_state.md R24), and no instruction touches the words offered or
the host's request. -/
def Obligations.NothingWritesConfigurationOrForeignCounters : Prop :=
  (∀ (s t : State) (i : Instr), exec i s = .next t → Kept s t) ∧
  (∀ s t : State, (∀ cfg, s.control ≠ some (.resetWith cfg)) → s.control ≠ some .reset →
    step s = .next t →
    t.cfg = s.cfg ∧
      ∀ j : SysId, j ≠ s.cfg.ownSystemId → seqGet t.seq j = seqGet s.seq j)

/-- The counts of 43_command_dispatcher.md R161 (derived there): an accepted word either ends in this
step, with one result, one triple in the run's history, at most one call, and the counter advanced
exactly if a word goes out, or it waits and none of them moves. -/
def Obligations.TransactionCountsHold : Prop :=
  ∀ (s : State) (i : Instr), Ready s → ∃ t, exec i s = .next t ∧
    ((∃ r, t.stage = .idle ∧ t.res = some r ∧
        t.history = s.history ++ [⟨encode i, r, t.tx⟩] ∧
        (t.calls = s.calls ∨ ∃ c, t.calls = s.calls ++ [c]) ∧
        ownSeq t = ownSeq s + (if t.tx.isSome then 1#5 else 0#5) ∧
        (r = .crcError → t.tx = none ∧ t.calls = s.calls)) ∨
     (t.stage = .busy i ∧ t.res = none ∧ t.tx = none ∧ t.history = s.history ∧
        t.calls = s.calls ∧ t.seq = s.seq ∧ t.answers = s.answers))

/-- Determinism as 43_command_dispatcher.md R183 qualifies it (derived there): word, configuration,
own counter and answers determine result, outbound word, call and counter, whatever the rest of the
two states holds, answers to abandoned calls included. -/
def Obligations.OutcomeDependsOnWordConfigCounterAndAnswersOnly : Prop :=
  ∀ (s s' t t' : State) (i : Instr), s.cfg = s'.cfg → s.stage = s'.stage → s.stage = .idle →
    ownSeq s = ownSeq s' → liveAnswers s.answers = liveAnswers s'.answers →
    exec i s = .next t → exec i s' = .next t' →
    t.res = t'.res ∧ t.tx = t'.tx ∧ t.stage = t'.stage ∧ ownSeq t = ownSeq t' ∧
      liveAnswers t.answers = liveAnswers t'.answers ∧
      (s.answers = s'.answers → t.answers = t'.answers) ∧
      (∃ made, t.calls = s.calls ++ made ∧ t'.calls = s'.calls ++ made)

/-- Fields the dispatcher ignores (30_encoding.md R73, R74, R77; 43_command_dispatcher.md R165; D36):
two verified words that select the same handler other than RESPONSE_IN, and differ only in SystemID,
PacketSequence, CheckSum, and for READ and IDENTIFY handlers in MessageValue, have the same result,
outbound word, calls and counter. -/
def Obligations.IgnoredFieldsDoNotChangeTheOutcome : Prop :=
  ∀ (s t t' : State) (w w' : Word),
    s.stage = .idle → chkVerify s.cfg w = true → chkVerify s.cfg w' = true →
    (decodePacket w).ver = (decodePacket w').ver →
    (decodePacket w).comp = (decodePacket w').comp →
    (decodePacket w).msg = (decodePacket w').msg →
    msgTypeOf s.cfg (decodePacket w).msg ≠ some .response →
    ((decodePacket w).val = (decodePacket w').val ∨
      (msgTypeOf s.cfg (decodePacket w).msg ≠ some .setValue ∧
       msgTypeOf s.cfg (decodePacket w).msg ≠ some .updateValue)) →
    exec (decode s.cfg w) s = .next t → exec (decode s.cfg w') s = .next t' →
    t.res = t'.res ∧ t.tx = t'.tx ∧ t.calls = t'.calls ∧ t.seq = t'.seq ∧
      t.answers = t'.answers

/-- An outbound word, fed to any IDLE core of the same configuration that knows its ComponentID, is
delivered and not answered, if the response version is supported (44_response_encoder.md R202,
43_command_dispatcher.md R179): two such nodes do not answer each other forever. -/
def Obligations.OutboundWordsAreDeliveredNotAnswered : Prop :=
  ∀ (s : State) (q : Seq) (w : Word) (d : Descriptor), Ready s → IsResponse s.cfg q w →
    s.cfg.respVersion ∈ s.cfg.supportedVersions →
    lookup s.cfg (decodePacket w).comp = some d →
    ∃ t, exec (decode s.cfg w) s = .next t ∧
      EndedSilently s t (decodePacket w) .done [⟨.deliver (decodePacket w), .nothing⟩]

/-- Under an accepted configuration and without a host request every step has a next state
(60_exceptions.md R231: every result code is a normal outcome, and there is no fault). -/
def Obligations.EveryStepUnderAnAcceptedConfigurationGoesOn : Prop :=
  ∀ s : State, configProblem s.cfg = none → s.control = none → ∃ t, step s = .next t

/-- The invariant of a run (`RunInv`) is kept by every step from every state that has it. -/
def Obligations.RunInvariantIsKeptByEveryStep : Prop :=
  ∀ s t : State, RunInv s → step s = .next t → RunInv t

/-- The invariant of a run holds right after reset, under every configuration and in `State.reset`. -/
def Obligations.RunInvariantAfterReset : Prop :=
  (∀ cfg : Config, RunInv (State.afterReset cfg)) ∧ RunInv State.reset

/-- Transactions are serialised (20_memory.md R58, 70_reset_and_hazards.md R257, R260): an IDLE core
with the words `ws` offered and answers enough for them serves them in order in as many steps, with
one triple of the run's history for each, in acceptance order, and the run then has ended. -/
def Obligations.OfferedWordsAreServedInOrder : Prop :=
  ∀ (ws : List Word) (s : State), Ready s → s.control = none → s.rx = ws →
    answersFor s.answers ws.length →
    ∃ t : State, runSteps ws.length s = .next t ∧ runEnded t = true ∧
      t.cfg = s.cfg ∧
      ∃ os : List Observation, t.history = s.history ++ os ∧ os.map Observation.inbound = ws ∧
        (ownSeq t).toNat =
          ((ownSeq s).toNat + (os.filterMap Observation.outbound).length) % 32

/-! ### Outputs and notation -/

/-- The `res` bus carries the index of the result and never 6 or 7 (10_state.md R26, D5), and under
the decided configuration the wire value of a result is that index (30_encoding.md R79, D5). -/
def Obligations.ResultCodesOnBusAndWire : Prop :=
  (∀ r : ResultCode, (resultIndex r).toNat < 6) ∧
  (∀ r r' : ResultCode, resultIndex r = resultIndex r' → r = r') ∧
  (∀ (own : SysId) (r : ResultCode), (resultWire (decidedFor own) r).toNat = (resultIndex r).toNat) ∧
  (∀ (s : State) (r : ResultCode), s.res = some r → resBus s = some (resultIndex r))

/-- The notation of 30_encoding.md R85 (D35): with `chk` omitted the word verifies, with `chk` given
the word carries it masked; the other fields are masked to their widths, and `val` omitted is 0. -/
def Obligations.PacketTextGivesItsWord : Prop :=
  ∀ (cfg : Config) (t : PacketText) (w : Word), assemble cfg t = some w →
    (t.chk = none → chkVerify cfg w = true) ∧
    (∀ k, t.chk = some k → (decodePacket w).chk.toNat = k % 2 ^ 4) ∧
    msgTypeOf cfg (decodePacket w).msg = some (textMsgType t.type) ∧
    (decodePacket w).ver.toNat = t.ver % 2 ^ 3 ∧
    (decodePacket w).sys.toNat = textSys cfg t.sys % 2 ^ 2 ∧
    (decodePacket w).seq.toNat = t.seq % 2 ^ 5 ∧
    (∀ c, textComp cfg t.comp = some c → (decodePacket w).comp.toNat = c % 2 ^ 8) ∧
    (decodePacket w).val.toNat = (t.val.getD 0) % 2 ^ 8

/-! ### Abandoned calls -/

/-- From 70_reset_and_hazards.md R251 (D29), "the answer to any outstanding call is ignored": after a
reset that abandons a call, whatever answers came before or come later (`more`), the core runs every
instruction as if the answer that the abandoned call would have taken were not among them. That a port
gives its answers in the order of its calls, and that the next step serves the request, are the model's
choices (log 8, log 7). -/
def Obligations.AnswerToAnAbandonedCallIsIgnoredWheneverItComes : Prop :=
  ∀ (s : State) (c : Call) (cfg : Config), outstanding s = some c →
    (s.control = some .reset ∧ cfg = s.cfg) ∨ s.control = some (.resetWith cfg) →
    ∃ t, step s = .next t ∧ ∀ more : Answers,
      liveAnswers (arrive t.answers more) = liveAnswers (withoutNext (arrive s.answers more) c) ∧
      ∀ (i : Instr) (u : State), exec i { t with answers := arrive t.answers more } = .next u →
        ∃ u', exec i { t with answers := withoutNext (arrive s.answers more) c } = .next u' ∧
          SameButStaleAnswers u u'
end

