-- ==== Sys2Proof/Laws/State.lean ====
section
/-! SUPPORT. What each named update of the state does to each field: one lemma per field, true by
`rfl`, so that no proof unfolds a record update. -/

namespace Sys2Proof.Machine

@[simp] theorem clearOutputs_cfg (s : State) :
    (clearOutputs s).cfg = s.cfg := rfl

@[simp] theorem clearOutputs_seq (s : State) :
    (clearOutputs s).seq = s.seq := rfl

@[simp] theorem clearOutputs_stage (s : State) :
    (clearOutputs s).stage = s.stage := rfl

@[simp] theorem clearOutputs_res (s : State) :
    (clearOutputs s).res = none := rfl

@[simp] theorem clearOutputs_tx (s : State) :
    (clearOutputs s).tx = none := rfl

@[simp] theorem clearOutputs_rx (s : State) :
    (clearOutputs s).rx = s.rx := rfl

@[simp] theorem clearOutputs_answers (s : State) :
    (clearOutputs s).answers = s.answers := rfl

@[simp] theorem clearOutputs_control (s : State) :
    (clearOutputs s).control = s.control := rfl

@[simp] theorem clearOutputs_history (s : State) :
    (clearOutputs s).history = s.history := rfl

@[simp] theorem clearOutputs_calls (s : State) :
    (clearOutputs s).calls = s.calls := rfl

@[simp] theorem accept_cfg (i : Instr) (s : State) :
    (accept i s).cfg = s.cfg := rfl

@[simp] theorem accept_seq (i : Instr) (s : State) :
    (accept i s).seq = s.seq := rfl

@[simp] theorem accept_stage (i : Instr) (s : State) :
    (accept i s).stage = .busy i := rfl

@[simp] theorem accept_res (i : Instr) (s : State) :
    (accept i s).res = none := rfl

@[simp] theorem accept_tx (i : Instr) (s : State) :
    (accept i s).tx = none := rfl

@[simp] theorem accept_rx (i : Instr) (s : State) :
    (accept i s).rx = s.rx := rfl

@[simp] theorem accept_answers (i : Instr) (s : State) :
    (accept i s).answers = s.answers := rfl

@[simp] theorem accept_control (i : Instr) (s : State) :
    (accept i s).control = s.control := rfl

@[simp] theorem accept_history (i : Instr) (s : State) :
    (accept i s).history = s.history := rfl

@[simp] theorem accept_calls (i : Instr) (s : State) :
    (accept i s).calls = s.calls := rfl

@[simp] theorem emit_cfg (p : Packet) (r : ResultCode) (out : Option Word) (s : State) :
    (emit p r out s).cfg = s.cfg := rfl

@[simp] theorem emit_seq (p : Packet) (r : ResultCode) (out : Option Word) (s : State) :
    (emit p r out s).seq = s.seq := rfl

@[simp] theorem emit_stage (p : Packet) (r : ResultCode) (out : Option Word) (s : State) :
    (emit p r out s).stage = .idle := rfl

@[simp] theorem emit_res (p : Packet) (r : ResultCode) (out : Option Word) (s : State) :
    (emit p r out s).res = some r := rfl

@[simp] theorem emit_tx (p : Packet) (r : ResultCode) (out : Option Word) (s : State) :
    (emit p r out s).tx = out := rfl

@[simp] theorem emit_rx (p : Packet) (r : ResultCode) (out : Option Word) (s : State) :
    (emit p r out s).rx = s.rx := rfl

@[simp] theorem emit_answers (p : Packet) (r : ResultCode) (out : Option Word) (s : State) :
    (emit p r out s).answers = s.answers := rfl

@[simp] theorem emit_control (p : Packet) (r : ResultCode) (out : Option Word) (s : State) :
    (emit p r out s).control = s.control := rfl

@[simp] theorem emit_history (p : Packet) (r : ResultCode) (out : Option Word) (s : State) :
    (emit p r out s).history = s.history ++ [⟨encodePacket p, r, out⟩] := rfl

@[simp] theorem emit_calls (p : Packet) (r : ResultCode) (out : Option Word) (s : State) :
    (emit p r out s).calls = s.calls := rfl

@[simp] theorem nextSeq_cfg (s : State) :
    ((nextSeq s).2).cfg = s.cfg := rfl

@[simp] theorem nextSeq_seq (s : State) :
    ((nextSeq s).2).seq = seqSet s.seq s.cfg.ownSystemId (ownSeq s + 1#5) := rfl

@[simp] theorem nextSeq_stage (s : State) :
    ((nextSeq s).2).stage = s.stage := rfl

@[simp] theorem nextSeq_res (s : State) :
    ((nextSeq s).2).res = s.res := rfl

@[simp] theorem nextSeq_tx (s : State) :
    ((nextSeq s).2).tx = s.tx := rfl

@[simp] theorem nextSeq_rx (s : State) :
    ((nextSeq s).2).rx = s.rx := rfl

@[simp] theorem nextSeq_answers (s : State) :
    ((nextSeq s).2).answers = s.answers := rfl

@[simp] theorem nextSeq_control (s : State) :
    ((nextSeq s).2).control = s.control := rfl

@[simp] theorem nextSeq_history (s : State) :
    ((nextSeq s).2).history = s.history := rfl

@[simp] theorem nextSeq_calls (s : State) :
    ((nextSeq s).2).calls = s.calls := rfl

@[simp] theorem record_cfg (c : Call) (a : Answer) (s : State) :
    (record c a s).cfg = s.cfg := rfl

@[simp] theorem record_seq (c : Call) (a : Answer) (s : State) :
    (record c a s).seq = s.seq := rfl

@[simp] theorem record_stage (c : Call) (a : Answer) (s : State) :
    (record c a s).stage = s.stage := rfl

@[simp] theorem record_res (c : Call) (a : Answer) (s : State) :
    (record c a s).res = s.res := rfl

@[simp] theorem record_tx (c : Call) (a : Answer) (s : State) :
    (record c a s).tx = s.tx := rfl

@[simp] theorem record_rx (c : Call) (a : Answer) (s : State) :
    (record c a s).rx = s.rx := rfl

@[simp] theorem record_answers (c : Call) (a : Answer) (s : State) :
    (record c a s).answers = s.answers := rfl

@[simp] theorem record_control (c : Call) (a : Answer) (s : State) :
    (record c a s).control = s.control := rfl

@[simp] theorem record_history (c : Call) (a : Answer) (s : State) :
    (record c a s).history = s.history := rfl

@[simp] theorem record_calls (c : Call) (a : Answer) (s : State) :
    (record c a s).calls = s.calls ++ [⟨c, a⟩] := rfl

@[simp] theorem replyResult_cfg (p : Packet) (r : ResultCode) (s : State) :
    (replyResult p r s).cfg = s.cfg := rfl

@[simp] theorem replyResult_seq (p : Packet) (r : ResultCode) (s : State) :
    (replyResult p r s).seq = seqSet s.seq s.cfg.ownSystemId (ownSeq s + 1#5) := rfl

@[simp] theorem replyResult_stage (p : Packet) (r : ResultCode) (s : State) :
    (replyResult p r s).stage = .idle := rfl

@[simp] theorem replyResult_res (p : Packet) (r : ResultCode) (s : State) :
    (replyResult p r s).res = some r := rfl

@[simp] theorem replyResult_tx (p : Packet) (r : ResultCode) (s : State) :
    (replyResult p r s).tx = some (buildResult p r s).1 := rfl

@[simp] theorem replyResult_rx (p : Packet) (r : ResultCode) (s : State) :
    (replyResult p r s).rx = s.rx := rfl

@[simp] theorem replyResult_answers (p : Packet) (r : ResultCode) (s : State) :
    (replyResult p r s).answers = s.answers := rfl

@[simp] theorem replyResult_control (p : Packet) (r : ResultCode) (s : State) :
    (replyResult p r s).control = s.control := rfl

@[simp] theorem replyResult_history (p : Packet) (r : ResultCode) (s : State) :
    (replyResult p r s).history = s.history ++ [⟨encodePacket p, r, some (buildResult p r s).1⟩] := rfl

@[simp] theorem replyResult_calls (p : Packet) (r : ResultCode) (s : State) :
    (replyResult p r s).calls = s.calls := rfl

@[simp] theorem replyValue_cfg (p : Packet) (v : Byte) (s : State) :
    (replyValue p v s).cfg = s.cfg := rfl

@[simp] theorem replyValue_seq (p : Packet) (v : Byte) (s : State) :
    (replyValue p v s).seq = seqSet s.seq s.cfg.ownSystemId (ownSeq s + 1#5) := rfl

@[simp] theorem replyValue_stage (p : Packet) (v : Byte) (s : State) :
    (replyValue p v s).stage = .idle := rfl

@[simp] theorem replyValue_res (p : Packet) (v : Byte) (s : State) :
    (replyValue p v s).res = some .done := rfl

@[simp] theorem replyValue_tx (p : Packet) (v : Byte) (s : State) :
    (replyValue p v s).tx = some (buildValue p.comp v s).1 := rfl

@[simp] theorem replyValue_rx (p : Packet) (v : Byte) (s : State) :
    (replyValue p v s).rx = s.rx := rfl

@[simp] theorem replyValue_answers (p : Packet) (v : Byte) (s : State) :
    (replyValue p v s).answers = s.answers := rfl

@[simp] theorem replyValue_control (p : Packet) (v : Byte) (s : State) :
    (replyValue p v s).control = s.control := rfl

@[simp] theorem replyValue_history (p : Packet) (v : Byte) (s : State) :
    (replyValue p v s).history = s.history ++ [⟨encodePacket p, .done, some (buildValue p.comp v s).1⟩] := rfl

@[simp] theorem replyValue_calls (p : Packet) (v : Byte) (s : State) :
    (replyValue p v s).calls = s.calls := rfl

@[simp] theorem resetCore_cfg (cfg : Config) (s : State) :
    (resetCore cfg s).cfg = cfg := rfl

@[simp] theorem resetCore_seq (cfg : Config) (s : State) :
    (resetCore cfg s).seq = seqAtReset cfg.ownSystemId cfg.seqInit := rfl

@[simp] theorem resetCore_stage (cfg : Config) (s : State) :
    (resetCore cfg s).stage = .idle := rfl

@[simp] theorem resetCore_res (cfg : Config) (s : State) :
    (resetCore cfg s).res = none := rfl

@[simp] theorem resetCore_tx (cfg : Config) (s : State) :
    (resetCore cfg s).tx = none := rfl

@[simp] theorem resetCore_rx (cfg : Config) (s : State) :
    (resetCore cfg s).rx = s.rx := rfl

@[simp] theorem resetCore_control (cfg : Config) (s : State) :
    (resetCore cfg s).control = none := rfl

@[simp] theorem resetCore_history (cfg : Config) (s : State) :
    (resetCore cfg s).history = [] := rfl

@[simp] theorem resetCore_calls (cfg : Config) (s : State) :
    (resetCore cfg s).calls = [] := rfl

@[simp] theorem nextSeq_fst (s : State) : (nextSeq s).1 = ownSeq s := rfl

@[simp] theorem buildResult_snd (p : Packet) (r : ResultCode) (s : State) :
    (buildResult p r s).2 = (nextSeq s).2 := rfl

@[simp] theorem buildValue_snd (c : CompId) (v : Byte) (s : State) :
    (buildValue c v s).2 = (nextSeq s).2 := rfl

@[simp] theorem ownSeq_clearOutputs (s : State) : ownSeq (clearOutputs s) = ownSeq s := rfl

@[simp] theorem ownSeq_accept (i : Instr) (s : State) : ownSeq (accept i s) = ownSeq s := rfl

@[simp] theorem ownSeq_emit (p : Packet) (r : ResultCode) (out : Option Word) (s : State) :
    ownSeq (emit p r out s) = ownSeq s := rfl

@[simp] theorem ownSeq_record (c : Call) (a : Answer) (s : State) :
    ownSeq (record c a s) = ownSeq s := rfl

end Sys2Proof.Machine
end

