-- ==== Sys2Proof/Laws/Ops.lean ====
section
/-! SUPPORT. One lemma per shared operation that says everything it can do; proofs cite these and do
not unfold the operation. -/

namespace Sys2Proof.Machine

/-! ### The counter file -/

@[simp] theorem seqGet_seqSet_self (f : SeqFile) (i : SysId) (v : Seq) :
    seqGet (seqSet f i v) i = v := by
  simp [seqGet, seqSet]

theorem seqGet_seqSet_other (f : SeqFile) (i j : SysId) (v : Seq) (h : j ≠ i) :
    seqGet (seqSet f i v) j = seqGet f j := by
  have h' : i.toNat ≠ j.toNat := fun e => h (BitVec.eq_of_toNat_eq e.symm)
  simp [seqGet, seqSet, Vector.getElem_set_ne _ _ h']

/-- The counter file after reset, read at any entry (10_state.md R30). -/
theorem seqGet_seqAtReset (own j : SysId) (init : Seq) :
    seqGet (seqAtReset own init) j = if j = own then init else 0#5 := by
  unfold seqAtReset
  split
  · next h => subst h; simp
  · next h => rw [seqGet_seqSet_other _ _ _ _ h]; simp [seqGet]

/-- A counter set through the own entry, read at the own entry. -/
@[simp] theorem ownSeq_replyResult (p : Packet) (r : ResultCode) (s : State) :
    ownSeq (replyResult p r s) = ownSeq s + 1#5 := by
  simp [ownSeq]

@[simp] theorem ownSeq_replyValue (p : Packet) (v : Byte) (s : State) :
    ownSeq (replyValue p v s) = ownSeq s + 1#5 := by
  simp [ownSeq]

/-! ### The ports: what abandoning a call and the arrival of answers do to the live answers -/

@[simp] theorem Port.live_of {α : Type} (l : List α) : (Port.of l).live = l := rfl

/-- Whatever answers come, before the reset or after it, the one the abandoned call would have taken is
not among the live ones (70_reset_and_hazards.md R251). -/
@[simp] theorem Port.live_arrive_abandon {α : Type} (p : Port α) (more : List α) :
    (p.abandon.arrive more).live = (p.arrive more).live.tail := by
  simp [Port.live, Port.abandon, Port.arrive]

/-! ### The collaborator ports: each waits while it has no live answer and takes the first one
otherwise -/

theorem takeGet_nil (c : CompId) (s : State) (h : s.answers.get.live = []) : takeGet c s = none := by
  simp [takeGet, h]

theorem takeGet_cons (c : CompId) (s : State) (v : Byte) (ok : Bool) (rest : List (Byte × Bool))
    (h : s.answers.get.live = (v, ok) :: rest) :
    takeGet c s = some (v, ok, record (.get c) (.valueOk v ok)
      { s with answers := { s.answers with get := .of rest } }) := by
  simp [takeGet, h]

theorem takeSet_nil (c : CompId) (v : Byte) (s : State) (h : s.answers.set.live = []) :
    takeSet c v s = none := by
  simp [takeSet, h]

theorem takeSet_cons (c : CompId) (v : Byte) (s : State) (ok : Bool) (rest : List Bool)
    (h : s.answers.set.live = ok :: rest) :
    takeSet c v s = some (ok, record (.set c v) (.ok ok)
      { s with answers := { s.answers with set := .of rest } }) := by
  simp [takeSet, h]

theorem takePush_nil (c : CompId) (v : Byte) (s : State) (h : s.answers.push.live = []) :
    takePush c v s = none := by
  simp [takePush, h]

theorem takePush_cons (c : CompId) (v : Byte) (s : State) (ok : Bool) (rest : List Bool)
    (h : s.answers.push.live = ok :: rest) :
    takePush c v s = some (ok, record (.push c v) (.ok ok)
      { s with answers := { s.answers with push := .of rest } }) := by
  simp [takePush, h]

theorem takeIdDevice_nil (s : State) (h : s.answers.idDevice.live = []) : takeIdDevice s = none := by
  simp [takeIdDevice, h]

theorem takeIdDevice_cons (s : State) (v : Byte) (rest : List Byte)
    (h : s.answers.idDevice.live = v :: rest) :
    takeIdDevice s = some (v, record .idDevice (.value v)
      { s with answers := { s.answers with idDevice := .of rest } }) := by
  simp [takeIdDevice, h]

theorem takeIdFirmware_nil (s : State) (h : s.answers.idFirmware.live = []) :
    takeIdFirmware s = none := by
  simp [takeIdFirmware, h]

theorem takeIdFirmware_cons (s : State) (v : Byte) (rest : List Byte)
    (h : s.answers.idFirmware.live = v :: rest) :
    takeIdFirmware s = some (v, record .idFirmware (.value v)
      { s with answers := { s.answers with idFirmware := .of rest } }) := by
  simp [takeIdFirmware, h]

/-! ### The gates and the transaction -/

theorem gates_unsupported (p : Packet) (k : Descriptor → State → State) (s : State)
    (h : versionSupported s.cfg p.ver = false) :
    gates p k s = replyResult p .unsupported s := by
  simp [gates, h]

theorem gates_crcError (p : Packet) (k : Descriptor → State → State) (s : State)
    (hv : versionSupported s.cfg p.ver = true) (hc : chkVerify s.cfg (encodePacket p) = false) :
    gates p k s = emit p .crcError none s := by
  simp [gates, hv, hc]

theorem gates_unknown (p : Packet) (k : Descriptor → State → State) (s : State)
    (hv : versionSupported s.cfg p.ver = true) (hc : chkVerify s.cfg (encodePacket p) = true)
    (hl : lookup s.cfg p.comp = none) :
    gates p k s = replyResult p .unknownCommand s := by
  simp [gates, hv, hc, hl]

theorem gates_pass (p : Packet) (k : Descriptor → State → State) (s : State) (d : Descriptor)
    (h : GatesPass s.cfg p d) : gates p k s = k d s := by
  obtain ⟨hv, hc, hl⟩ := h
  simp [gates, hv, hc, hl]

/-- The four ways through the gates (43_command_dispatcher.md R160). -/
theorem gates_cases (p : Packet) (k : Descriptor → State → State) (s : State) :
    (versionSupported s.cfg p.ver = false ∧ gates p k s = replyResult p .unsupported s) ∨
    (versionSupported s.cfg p.ver = true ∧ chkVerify s.cfg (encodePacket p) = false ∧
      gates p k s = emit p .crcError none s) ∨
    (versionSupported s.cfg p.ver = true ∧ chkVerify s.cfg (encodePacket p) = true ∧
      lookup s.cfg p.comp = none ∧ gates p k s = replyResult p .unknownCommand s) ∨
    (∃ d, GatesPass s.cfg p d ∧ gates p k s = k d s) := by
  cases hv : versionSupported s.cfg p.ver
  · exact .inl ⟨rfl, gates_unsupported p k s hv⟩
  · cases hc : chkVerify s.cfg (encodePacket p)
    · exact .inr (.inl ⟨rfl, rfl, gates_crcError p k s hv hc⟩)
    · cases hl : lookup s.cfg p.comp with
      | none => exact .inr (.inr (.inl ⟨rfl, rfl, rfl, gates_unknown p k s hv hc hl⟩))
      | some d => exact .inr (.inr (.inr ⟨d, ⟨hv, hc, hl⟩, gates_pass p k s d ⟨hv, hc, hl⟩⟩))

theorem transact_ready (i : Instr) (k : Descriptor → State → State) (s : State) (h : Ready s) :
    transact i k s = .next (gates i.packet k (accept i s)) := by
  simp [transact, h.1, h.2]

theorem transact_busy (i j : Instr) (k : Descriptor → State → State) (s : State)
    (hc : configProblem s.cfg = none) (hb : s.stage = .busy j) : transact i k s = .next s := by
  simp [transact, hc, hb]

theorem transact_refused (i : Instr) (k : Descriptor → State → State) (s : State)
    (e : ConfigProblem) (h : configProblem s.cfg = some e) :
    transact i k s = .refused (.configRefused e) := by
  simp [transact, h]

/-- Everything a transaction can answer with a next state: a BUSY core holds the word, an IDLE core
runs the gates. -/
theorem transact_next (i : Instr) (k : Descriptor → State → State) (s t : State)
    (h : transact i k s = .next t) :
    configProblem s.cfg = none ∧
      ((∃ j, s.stage = .busy j ∧ t = s) ∨
       (s.stage = .idle ∧ t = gates i.packet k (accept i s))) := by
  unfold transact at h
  split at h
  · cases h
  · next hc =>
    split at h
    · next j hb => cases h; exact ⟨hc, .inl ⟨j, hb, rfl⟩⟩
    · next hi => cases h; exact ⟨hc, .inr ⟨hi, rfl⟩⟩

/-! ### The handlers as one shape -/

/-- The result a handler answers when a check of its own fails (43_command_dispatcher.md R173, R176,
R177). -/
def checkResult : Instr → ResultCode
  | .setValue _ => .invalidValue
  | _ => .unsupported

/-- A handler behind its gates: its own checks, then its call. -/
def handlerBody (i : Instr) (d : Descriptor) (s : State) : State :=
  if checksPass i d then resume i s else replyResult i.packet (checkResult i) s

/-- Every arm of `exec` is a transaction of this one shape. -/
theorem exec_eq (i : Instr) (s : State) : exec i s = transact i (handlerBody i) s := by
  cases i with
  | readDeviceId p =>
    show transact _ _ s = _
    congr 1; funext d t; by_cases h : d.access = .wo <;>
      simp [handlerBody, checksPass, checkResult, h, resume, Instr.packet]
  | readFirmwareVersion p =>
    show transact _ _ s = _
    congr 1; funext d t; by_cases h : d.access = .wo <;>
      simp [handlerBody, checksPass, checkResult, h, resume, Instr.packet]
  | readValue p =>
    show transact _ _ s = _
    congr 1; funext d t; by_cases h : d.access = .wo <;>
      simp [handlerBody, checksPass, checkResult, h, resume, Instr.packet]
  | setValue p =>
    show transact _ _ s = _
    congr 1; funext d t
    by_cases h : d.access = .ro <;> cases hd : inDomain d.domain p.val <;>
      simp [handlerBody, checksPass, checkResult, h, hd, resume, Instr.packet]
  | updateValue p => rfl
  | responseIn p => rfl
  | identifyDevice p => rfl
  | unassignedMessage p => rfl

/-- A handler whose call has no answer stays as it is (70_reset_and_hazards.md R258). -/
theorem resume_waits (i : Instr) (s : State) (c : Call) (h : handlerCall s.cfg i = some c)
    (hn : answerReady s.answers c = false) : resume i s = s := by
  cases i <;> simp only [handlerCall, Option.some.injEq, reduceCtorEq] at h
  case readDeviceId p =>
    subst h; simp [answerReady] at hn; simp [resume, callReadDeviceId, takeIdDevice_nil s hn]
  case readFirmwareVersion p =>
    subst h; simp [answerReady] at hn
    simp [resume, callReadFirmwareVersion, takeIdFirmware_nil s hn]
  case readValue p =>
    subst h; simp [answerReady] at hn; simp [resume, callReadValue, takeGet_nil _ s hn]
  case setValue p =>
    subst h; simp [answerReady] at hn; simp [resume, callSetValue, takeSet_nil _ _ s hn]
  case updateValue p =>
    subst h; simp [answerReady] at hn; simp [resume, callUpdateValue, takePush_nil _ _ s hn]
  case identifyDevice p =>
    by_cases hp : p.comp = s.cfg.idFirmwareVersion
    · simp only [hp, if_true] at h; subst h; simp [answerReady] at hn
      simp [resume, callIdentifyDevice, hp, takeIdFirmware_nil s hn]
    · simp only [hp, if_false] at h; subst h; simp [answerReady] at hn
      simp [resume, callIdentifyDevice, hp, takeIdDevice_nil s hn]

/-- A handler that goes on from its call either replies after at most one completed call, or delivers
the packet and ends without a word, or waits. `u` is the state once the
answer of its call, if it makes one, is taken. -/
theorem resume_cases (i : Instr) (s : State) :
    (∃ c, handlerCall s.cfg i = some c ∧ answerReady s.answers c = false ∧ resume i s = s) ∨
    (∃ u : State,
      ((u = s ∧ handlerCall s.cfg i = none) ∨
        ∃ c a, handlerCall s.cfg i = some c ∧
          u = record c a { s with answers := withoutNext s.answers c }) ∧
      (∀ c, handlerCall s.cfg i = some c → answerReady s.answers c = true) ∧
      ((∃ r, r ≠ .crcError ∧ resume i s = replyResult i.packet r u) ∨
       (∃ v, resume i s = replyValue i.packet v u)) ∧ ∀ p, i ≠ .responseIn p) ∨
    (∃ p, i = .responseIn p ∧ resume i s = emit p .done none (record (.deliver p) .nothing s)) := by
  cases i with
  | readDeviceId p =>
    cases h : s.answers.idDevice.live with
    | nil => exact .inl ⟨_, rfl, by simp [answerReady, h],
        by simp [resume, callReadDeviceId, takeIdDevice_nil s h]⟩
    | cons v rest =>
      refine .inr (.inl ⟨record .idDevice (.value v) { s with answers := { s.answers with idDevice := .of rest } },
        .inr ⟨_, (.value v), rfl, by simp [withoutNext, h]⟩, ?_, .inr ⟨v, ?_⟩, ?_⟩)
      · intro c hc; cases hc; simp [answerReady, h]
      · simp only [resume, callReadDeviceId, takeIdDevice_cons s v rest h]; rfl
      · intro q; simp
  | readFirmwareVersion p =>
    cases h : s.answers.idFirmware.live with
    | nil => exact .inl ⟨_, rfl, by simp [answerReady, h],
        by simp [resume, callReadFirmwareVersion, takeIdFirmware_nil s h]⟩
    | cons v rest =>
      refine .inr (.inl ⟨record .idFirmware (.value v) { s with answers := { s.answers with idFirmware := .of rest } },
        .inr ⟨_, (.value v), rfl, by simp [withoutNext, h]⟩, ?_, .inr ⟨v, ?_⟩, ?_⟩)
      · intro c hc; cases hc; simp [answerReady, h]
      · simp only [resume, callReadFirmwareVersion, takeIdFirmware_cons s v rest h]; rfl
      · intro q; simp
  | readValue p =>
    cases h : s.answers.get.live with
    | nil => exact .inl ⟨_, rfl, by simp [answerReady, h],
        by simp [resume, callReadValue, takeGet_nil _ s h]⟩
    | cons a rest =>
      obtain ⟨v, ok⟩ := a
      cases ok
      · refine .inr (.inl ⟨record (.get p.comp) (.valueOk v false) { s with answers := { s.answers with get := .of rest } },
        .inr ⟨_, (.valueOk v false), rfl, by simp [withoutNext, h]⟩, ?_, .inl ⟨.failure, by simp, ?_⟩, ?_⟩)
        · intro c hc; cases hc; simp [answerReady, h]
        · simp only [resume, callReadValue, takeGet_cons _ s v _ rest h]; rfl
        · intro q; simp
      · refine .inr (.inl ⟨record (.get p.comp) (.valueOk v true) { s with answers := { s.answers with get := .of rest } },
        .inr ⟨_, (.valueOk v true), rfl, by simp [withoutNext, h]⟩, ?_, .inr ⟨v, ?_⟩, ?_⟩)
        · intro c hc; cases hc; simp [answerReady, h]
        · simp only [resume, callReadValue, takeGet_cons _ s v _ rest h]; rfl
        · intro q; simp
  | setValue p =>
    cases h : s.answers.set.live with
    | nil => exact .inl ⟨_, rfl, by simp [answerReady, h],
        by simp [resume, callSetValue, takeSet_nil _ _ s h]⟩
    | cons ok rest =>
      refine .inr (.inl ⟨record (.set p.comp p.val) (.ok ok) { s with answers := { s.answers with set := .of rest } },
        .inr ⟨_, (.ok ok), rfl, by simp [withoutNext, h]⟩, ?_,
        .inl ⟨if ok then .done else .failure, by cases ok <;> simp, ?_⟩, ?_⟩)
      · intro c hc; cases hc; simp [answerReady, h]
      · simp only [resume, callSetValue, takeSet_cons _ _ s ok rest h]; cases ok <;> rfl
      · intro q; simp
  | updateValue p =>
    cases h : s.answers.push.live with
    | nil => exact .inl ⟨_, rfl, by simp [answerReady, h],
        by simp [resume, callUpdateValue, takePush_nil _ _ s h]⟩
    | cons ok rest =>
      refine .inr (.inl ⟨record (.push p.comp p.val) (.ok ok) { s with answers := { s.answers with push := .of rest } },
        .inr ⟨_, (.ok ok), rfl, by simp [withoutNext, h]⟩, ?_,
        .inl ⟨if ok then .done else .failure, by cases ok <;> simp, ?_⟩, ?_⟩)
      · intro c hc; cases hc; simp [answerReady, h]
      · simp only [resume, callUpdateValue, takePush_cons _ _ s ok rest h]; cases ok <;> rfl
      · intro q; simp
  | responseIn p => exact .inr (.inr ⟨p, rfl, rfl⟩)
  | identifyDevice p =>
    by_cases hp : p.comp = s.cfg.idFirmwareVersion
    · cases h : s.answers.idFirmware.live with
      | nil => exact .inl ⟨.idFirmware, by simp [handlerCall, hp], by simp [answerReady, h],
          by simp [resume, callIdentifyDevice, hp, takeIdFirmware_nil s h]⟩
      | cons v rest =>
        refine .inr (.inl ⟨record .idFirmware (.value v) { s with answers := { s.answers with idFirmware := .of rest } },
        .inr ⟨.idFirmware, (.value v), by simp [handlerCall, hp], by simp [withoutNext, h]⟩, ?_, .inr ⟨v, ?_⟩, ?_⟩)
        · intro c hc; simp [handlerCall, hp] at hc; subst hc; simp [answerReady, h]
        · simp only [resume, callIdentifyDevice, hp, if_true, takeIdFirmware_cons s v rest h]; rfl
        · intro q; simp
    · cases h : s.answers.idDevice.live with
      | nil => exact .inl ⟨.idDevice, by simp [handlerCall, hp], by simp [answerReady, h],
          by simp [resume, callIdentifyDevice, hp, takeIdDevice_nil s h]⟩
      | cons v rest =>
        refine .inr (.inl ⟨record .idDevice (.value v) { s with answers := { s.answers with idDevice := .of rest } },
        .inr ⟨.idDevice, (.value v), by simp [handlerCall, hp], by simp [withoutNext, h]⟩, ?_, .inr ⟨v, ?_⟩, ?_⟩)
        · intro c hc; simp [handlerCall, hp] at hc; subst hc; simp [answerReady, h]
        · simp only [resume, callIdentifyDevice, hp, if_false, takeIdDevice_cons s v rest h]; rfl
        · intro q; simp
  | unassignedMessage p =>
    refine .inr (.inl ⟨s, .inl ⟨rfl, rfl⟩, ?_,
      .inl ⟨.unknownCommand, by simp, rfl⟩, ?_⟩)
    · intro c hc; cases hc
    · intro q; simp

/-! ### The step -/

/-- Everything a step can do. -/
theorem step_cases (s : State) :
    (∃ c, s.control = some c ∧ step s = applyControl c (clearOutputs s)) ∨
    (s.control = none ∧ ∃ e, configProblem s.cfg = some e ∧
      step s = .refused (.configRefused e)) ∨
    (s.control = none ∧ configProblem s.cfg = none ∧ ∃ i, s.stage = .busy i ∧
      step s = .next (resume i (clearOutputs s))) ∨
    (s.control = none ∧ Ready s ∧ s.rx = [] ∧ step s = .next (clearOutputs s)) ∨
    (s.control = none ∧ Ready s ∧ ∃ w ws, s.rx = w :: ws ∧
      step s = exec (decode s.cfg w) { s with rx := ws }) := by
  cases hc : s.control with
  | some c => exact .inl ⟨c, rfl, by simp [step, hc]⟩
  | none =>
    cases hp : configProblem s.cfg with
    | some e => exact .inr (.inl ⟨rfl, e, rfl, by simp [step, hc, hp]⟩)
    | none =>
      cases hs : s.stage with
      | busy i => exact .inr (.inr (.inl ⟨rfl, rfl, i, rfl, by simp [step, hc, hp, hs]⟩))
      | idle =>
        cases hr : s.rx with
        | nil =>
          exact .inr (.inr (.inr (.inl ⟨rfl, ⟨hp, hs⟩, rfl, by simp [step, hc, hp, hs, fetch, hr]⟩)))
        | cons w ws =>
          exact .inr (.inr (.inr (.inr ⟨rfl, ⟨hp, hs⟩, w, ws, rfl,
            by simp [step, hc, hp, hs, fetch, hr]⟩)))

end Sys2Proof.Machine
end

