-- ==== Sys2Proof/Laws/PerInstr.lean ====
section
/-! SUPPORT. Statements about every instruction as syntax, one lemma per constructor of Instr. -/

namespace Sys2Proof.Laws.PacketCarried

/-- A well-formed instruction's packet has the MessageID code of the instruction's type, and its
encoding is its packet's word (30_encoding.md R82, R70). -/
def Statement (i : Instr) : Prop :=
  ∀ cfg : Config, i.wellFormed cfg = true →
    Machine.msgTypeOf cfg i.packet.msg = i.msgType ∧ encode i = encodePacket i.packet

/-- The check of the MessageID code is the first part of every well-formedness check. -/
theorem of_wellFormed (i : Instr) : Statement i := by
  intro cfg h
  refine ⟨?_, rfl⟩
  simp only [Instr.wellFormed, Bool.and_eq_true, beq_iff_eq] at h
  exact h.1

theorem readDeviceId (p : Packet) : Statement (.readDeviceId p) := of_wellFormed _

theorem readFirmwareVersion (p : Packet) : Statement (.readFirmwareVersion p) := of_wellFormed _

theorem readValue (p : Packet) : Statement (.readValue p) := of_wellFormed _

theorem setValue (p : Packet) : Statement (.setValue p) := of_wellFormed _

theorem updateValue (p : Packet) : Statement (.updateValue p) := of_wellFormed _

theorem responseIn (p : Packet) : Statement (.responseIn p) := of_wellFormed _

theorem identifyDevice (p : Packet) : Statement (.identifyDevice p) := of_wellFormed _

theorem unassignedMessage (p : Packet) : Statement (.unassignedMessage p) := of_wellFormed _

end Sys2Proof.Laws.PacketCarried
end

