-- ==== Sys2Proof/Laws/Run.lean ====
section
/-! SUPPORT. Runs of several steps. -/

namespace Sys2Proof.Machine

@[simp] theorem runSteps_zero (s : State) : runSteps 0 s = .next s := rfl

/-- A run begins with its first step. -/
theorem runSteps_succ (k : Nat) (s t : State) (h : step s = .next t) :
    runSteps (k + 1) s = runSteps k t := by
  simp [runSteps, h]

/-- A run in two parts. -/
theorem runSteps_add (j k : Nat) (s t : State) (h : runSteps j s = .next t) :
    runSteps (j + k) s = runSteps k t := by
  induction j generalizing s with
  | zero => cases h; rw [Nat.zero_add]
  | succ j ih =>
    rw [Nat.succ_add]
    cases hs : step s with
    | next u =>
      rw [runSteps_succ j s u hs] at h
      rw [Nat.succ_eq_add_one, runSteps_succ (j + k) s u hs]
      exact ih u h
    | fault r => simp [runSteps, hs] at h
    | refused r => simp [runSteps, hs] at h

/-- The host's run, one step unfolded. -/
theorem core_run_succ (M : Host.Core) (k : Nat) (s : M.State) :
    ∀ o : Host.Outcome M.State M.Fault M.Refusal, M.step s = o →
      M.run (k + 1) s =
        match o with
        | .next t => M.run k t
        | .fault r => .fault r
        | .refused r => .refused r := by
  intro o h; rw [← h]; rfl

/-- `runSteps` is the host's run of this core. -/
theorem runSteps_eq_core_run (k : Nat) : ∀ s : State, runSteps k s = Sys2Proof.core.run k s := by
  induction k with
  | zero => exact fun _ => rfl
  | succ k ih =>
    intro s
    cases hs : step s with
    | next u =>
      exact (runSteps_succ k s u hs).trans
        ((ih u).trans (core_run_succ Sys2Proof.core k s (.next u) hs).symm)
    | fault r =>
      exact (by simp [runSteps, hs] : runSteps (k + 1) s = .fault r).trans
        (core_run_succ Sys2Proof.core k s (.fault r) hs).symm
    | refused r =>
      exact (by simp [runSteps, hs] : runSteps (k + 1) s = .refused r).trans
        (core_run_succ Sys2Proof.core k s (.refused r) hs).symm

end Sys2Proof.Machine
end

