-- ==== Sys2Proof/Tests/Slice0.lean ====
section
/-! SUPPORT. Tests: words and outcomes of 95_test_vectors.md and of the examples in the rules, the
refusals of the well-formedness and configuration checks, and a witness for the hypotheses of each
statement that has some. Every expected value is the spec's. -/

namespace Sys2Proof.Tests

open Sys2Proof Sys2Proof.Machine

set_option maxRecDepth 4000

/-! ### Configurations the vectors use -/

/-- The map of V-DSP-28: code 2 is IdentifyDevice. -/
def identifyConfig : Config :=
  { decidedConfig with
      msgTypeMap := { decidedMsgTypeMap with code2 := some .identifyDevice } }

/-- The map of V-DSP-27: code 2 is Unassigned. -/
def unassignedConfig : Config :=
  { decidedConfig with msgTypeMap := { decidedMsgTypeMap with code2 := none } }

/-- The registry of P3, E9 and V-DSP-12: some WO IDs, 0x55 Unknown, a narrowed domain. -/
def p3Config : Config :=
  { decidedConfig with
      registry := { unknown := [0x55#8], access := [(0x40#8, .wo), (0x30#8, .wo), (0xF0#8, .wo),
                      (0xF1#8, .wo)], domain := [(0x21#8, [(0#8, 100#8)])] } }

/-! ### WellFormed: each check refuses an ill-formed term -/

theorem test_wellFormed_accepts :
    (Instr.readDeviceId ⟨1, 0, 0, 0xF0, 0, 0, 1⟩).wellFormed decidedConfig = true := by decide

theorem test_wellFormed_refuses_wrong_code :
    (Instr.setValue ⟨1, 0, 0, 0x20, 0, 0, 1⟩).wellFormed decidedConfig = false := by decide

theorem test_wellFormed_refuses_assigned_code :
    (Instr.unassignedMessage ⟨1, 0, 0, 0x20, 2, 0, 1⟩).wellFormed decidedConfig = false := by decide

theorem test_wellFormed_refuses_wrong_device_id :
    (Instr.readDeviceId ⟨1, 0, 0, 0xF1, 0, 0, 1⟩).wellFormed decidedConfig = false := by decide

theorem test_wellFormed_refuses_wrong_firmware_id :
    (Instr.readFirmwareVersion ⟨1, 0, 0, 0xF0, 0, 0, 1⟩).wellFormed decidedConfig = false := by
  decide

theorem test_wellFormed_refuses_firmware_at_device_id :
    (Instr.readFirmwareVersion ⟨1, 0, 0, 0xF0, 0, 0, 1⟩).wellFormed
      { decidedConfig with idFirmwareVersion := 0xF0#8 } = false := by decide

theorem test_wellFormed_refuses_identity_ids_as_values :
    (Instr.readValue ⟨1, 0, 0, 0xF0, 0, 0, 1⟩).wellFormed decidedConfig = false ∧
    (Instr.readValue ⟨1, 0, 0, 0xF1, 0, 0, 1⟩).wellFormed decidedConfig = false := by decide

/-! ### Configurations: each condition of R253 -/

theorem test_config_accepted :
    configProblem decidedConfig = none ∧ configProblem identifyConfig = none ∧
    configProblem unassignedConfig = none ∧ configProblem p3Config = none := by decide

theorem test_config_no_response_code :
    configProblem { decidedConfig with
      msgTypeMap := { decidedMsgTypeMap with code3 := some .identifyDevice } } =
      some .responseCode := by decide

theorem test_config_duplicate_type :
    configProblem { decidedConfig with
      msgTypeMap := { decidedMsgTypeMap with code2 := some .readValue } } =
      some .duplicateType := by decide

theorem test_config_writable_meter :
    configProblem { decidedConfig with
      registry := { decidedRegistry with access := [(0xEF#8, .rw)] } } = some .meterAccess := by
  decide

theorem test_config_name_out_of_range :
    configProblem { decidedConfig with idCompThreshold := 0x40#8 } = some .nameRange := by decide

theorem test_config_identity_clash :
    configProblem { decidedConfig with idFirmwareVersion := 0xF0#8 } = some .identityClash := by
  decide

/-! ### Encodings, each word written out field by field (30_encoding.md R70) -/

/-- ver 001, sys 00, seq 00000, comp 11110000, msg 00, val 00000000, chk 0001 (E3). -/
theorem test_decode_readDeviceId :
    decode decidedConfig 0b001_00_00000_11110000_00_00000000_0001#32 =
      .readDeviceId ⟨1, 0, 0, 0xF0, 0, 0, 1⟩ := by decide

/-- V-DSP-13. -/
theorem test_decode_readFirmwareVersion :
    decode decidedConfig 0b001_00_00000_11110001_00_00000000_0101#32 =
      .readFirmwareVersion ⟨1, 0, 0, 0xF1, 0, 0, 5⟩ := by decide

/-- V-DSP-15: the ignored fields at their maximum. -/
theorem test_decode_readValue :
    decode decidedConfig 0b001_11_11111_00010000_00_11111111_0000#32 =
      .readValue ⟨1, 3, 31, 0x10, 0, 0xFF, 0⟩ := by decide

/-- E1. -/
theorem test_decode_setValue :
    decode decidedConfig 0b001_00_00011_00100000_01_00101000_0001#32 =
      .setValue ⟨1, 0, 3, 0x20, 1, 0x28, 1⟩ := by decide

/-- V-DSP-23. -/
theorem test_decode_updateValue :
    decode decidedConfig 0b001_10_01001_11100000_10_10000000_1110#32 =
      .updateValue ⟨1, 2, 9, 0xE0, 2, 0x80, 0xE⟩ := by decide

/-- V-DSP-26. -/
theorem test_decode_responseIn :
    decode decidedConfig 0b001_11_00100_00100000_11_11111110_0100#32 =
      .responseIn ⟨1, 3, 4, 0x20, 3, 0xFE, 4⟩ := by decide

/-- V-DSP-28. -/
theorem test_decode_identifyDevice :
    decode identifyConfig 0b001_00_00000_11110001_10_00000000_0111#32 =
      .identifyDevice ⟨1, 0, 0, 0xF1, 2, 0, 7⟩ := by decide

/-- V-DSP-27. -/
theorem test_decode_unassignedMessage :
    decode unassignedConfig 0b001_00_00000_00100000_10_00000000_1100#32 =
      .unassignedMessage ⟨1, 0, 0, 0x20, 2, 0, 0xC⟩ := by decide

/-- The match and mask columns of spec/opcode_table.json. -/
theorem test_opcode_rows :
    opcodeRows decidedConfig =
      [⟨"READ_DEVICE_ID", 0x203C0000#32, 0xE03FF000#32⟩,
       ⟨"READ_FIRMWARE_VERSION", 0x203C4000#32, 0xE03FF000#32⟩,
       ⟨"READ_VALUE", 0x20000000#32, 0xE0003000#32⟩,
       ⟨"SET_VALUE", 0x20001000#32, 0xE0003000#32⟩,
       ⟨"UPDATE_VALUE", 0x20002000#32, 0xE0003000#32⟩,
       ⟨"RESPONSE_IN", 0x20003000#32, 0xE0003000#32⟩] := by decide

/-- V-COD-12, V-COD-13. -/
theorem test_encode_masks :
    encodeWide ⟨9, 4, 35, 0x120, 5, 0x128, 0x11⟩ = 0x20C81281#32 ∧
    encodeWide ⟨8, 4, 32, 0x100, 4, 0x100, 0x10⟩ = 0x00000000#32 := by decide

/-- V-COD-11. -/
theorem test_decode_deadbeef :
    decodePacket 0xDEADBEEF#32 = ⟨6, 3, 26, 0xB6, 3, 0xEE, 0xF⟩ := by decide

/-- The byte images of 20_memory.md R52, and the refusals of other lengths. -/
theorem test_bytes :
    wordOfBytes .big [0x20#8, 0xC8#8, 0x12#8, 0x81#8] = .ok 0x20C81281#32 ∧
    wordOfBytes .little [0x81#8, 0x12#8, 0xC8#8, 0x20#8] = .ok 0x20C81281#32 ∧
    wordOfBytes .big [0x20#8, 0xC8#8, 0x12#8] = .error .incomplete ∧
    wordOfBytes .big [0x20#8, 0xC8#8, 0x12#8, 0x81#8, 0#8] = .error .overlong :=
  ⟨rfl, rfl, rfl, rfl⟩

theorem test_decodeTableWord :
    decodeTableWord 32 0x203C0000 = some (.readDeviceId ⟨1, 0, 0, 0xF0, 0, 0, 0⟩) ∧
    decodeTableWord 40 0x203C0000 = none := by decide

/-! ### Checksum vectors -/

/-- V-CHK-2, V-CHK-3, V-CHK-4, V-CHK-12, and the CRC values of 93_implementation_defined.md G1. -/
theorem test_checksums :
    nibbleSum 0xFFFFFFF#28 = 9#4 ∧ nibbleSum 0x20C8128#28 = 1#4 ∧ nibbleSum 0x8888888#28 = 8#4 ∧
    nibbleXor 0x20C8128#28 = 0xD#4 ∧ nibbleXor 0xFFFFFFF#28 = 0xF#4 ∧
    crc4 0x0000001#28 = 3#4 ∧ crc4 0x20C8128#28 = 0xA#4 ∧ crc4 0xFFFFFFF#28 = 0xC#4 := by decide

/-- V-CHK-5, V-CHK-7, V-CHK-8, V-CHK-9. -/
theorem test_verify :
    chkVerify decidedConfig 0x00000000#32 = true ∧ chkVerify decidedConfig 0xFFFFFFFF#32 = false ∧
    chkVerify decidedConfig 0xFFFFFFF9#32 = true ∧ chkVerify decidedConfig 0x20C81A01#32 = true ∧
    chkVerify decidedConfig 0x20C80291#32 = true ∧ chkVerify decidedConfig 0x20C81821#32 = true := by
  decide

/-- The example of 42_component_registry.md R143, and V-REG-10. -/
theorem test_lookup :
    lookup decidedConfig 0xD5#8 = some ⟨.dynamics, .generic, .rw, [(0#8, 0xFF#8)]⟩ ∧
    lookup decidedConfig 0xE0#8 = some ⟨.metersStatus, .meterInputLevel, .ro, [(0#8, 0xFF#8)]⟩ := by
  decide

/-! ### One step from a state with one word offered -/

/-- The core after reset with one word offered and some answers ready. -/
def offered (cfg : Config) (w : Word) (a : Answers) : State :=
  { State.afterReset cfg with rx := [w], answers := a }

/-- One step ends the transaction with this result, outbound word, calls and own counter. -/
def endsWith (s : State) (r : ResultCode) (out : Option Word) (calls : List Call) (own : Nat) : Bool :=
  match step s with
  | .next t => t.stage == .idle && t.res == some r && t.tx == out && t.calls.map CallRecord.call == calls &&
      (ownSeq t).toNat == own && t.rx.isEmpty
  | .fault _ => false
  | .refused _ => false

/-- E3. -/
theorem test_readDeviceId :
    endsWith (offered decidedConfig 0x203C0001#32 { Answers.none with idDevice := .of [0x42#8] })
      .done (some 0x283C3422#32) [.idDevice] 1 = true := by decide

/-- V-DSP-12. -/
theorem test_readDeviceId_write_only :
    endsWith (offered p3Config 0x203C0001#32 { Answers.none with idDevice := .of [0x42#8] })
      .unsupported (some 0x283C302E#32) [] 1 = true := by decide

/-- V-DSP-13. -/
theorem test_readFirmwareVersion :
    endsWith (offered decidedConfig 0x203C4005#32 { Answers.none with idFirmware := .of [0x17#8] })
      .done (some 0x283C7178#32) [.idFirmware] 1 = true := by decide

/-- P2 step 6: the counter at 1. -/
theorem test_readFirmwareVersion_second :
    endsWith (offered { decidedConfig with seqInit := 1#5 } 0x233C4008#32
        { Answers.none with idFirmware := .of [0x17#8] })
      .done (some 0x287C717C#32) [.idFirmware] 2 = true := by decide

/-- V-DSP-7. -/
theorem test_readValue :
    endsWith (offered decidedConfig 0x20040006#32 { Answers.none with get := .of [(0xAB#8, true)] })
      .done (some 0x28043AB6#32) [.get 0x10#8] 1 = true := by decide

/-- V-DSP-8. -/
theorem test_readValue_failure :
    endsWith (offered decidedConfig 0x20040006#32 { Answers.none with get := .of [(0xAB#8, false)] })
      .failure (some 0x28043012#32) [.get 0x10#8] 1 = true := by decide

/-- E10: the counter wraps. -/
theorem test_setValue_wrap :
    endsWith (offered { decidedConfig with seqInit := 31#5 } 0x20C81281#32
        { Answers.none with set := .of [true] })
      .done (some 0x2FC83008#32) [.set 0x20#8 0x28#8] 0 = true := by decide

/-- V-DSP-20: one above the narrowed domain. -/
theorem test_setValue_out_of_domain :
    endsWith (offered p3Config 0x2008565A#32 { Answers.none with set := .of [true] })
      .invalidValue (some 0x2808705E#32) [] 1 = true := by decide

/-- V-DSP-23. -/
theorem test_updateValue :
    endsWith (offered decidedConfig 0x3278280E#32 { Answers.none with push := .of [true] })
      .done (some 0x28383008#32) [.push 0xE0#8 0x80#8] 1 = true := by decide

/-- V-DSP-24. -/
theorem test_updateValue_refused_by_sink :
    endsWith (offered decidedConfig 0x3278280E#32 { Answers.none with push := .of [false] })
      .failure (some 0x28383019#32) [.push 0xE0#8 0x80#8] 1 = true := by decide

/-- V-DSP-26. -/
theorem test_responseIn :
    endsWith (offered decidedConfig 0x39083FE4#32 Answers.none)
      .done none [.deliver ⟨1, 3, 4, 0x20, 3, 0xFE, 4⟩] 0 = true := by decide

/-- P4 step 2: core A (SystemID 0) is given core B's response. -/
theorem test_responseIn_from_other_core :
    endsWith (offered (decidedFor 0#2) 0x2808328F#32 Answers.none)
      .done none [.deliver ⟨1, 1, 0, 0x20, 3, 0x28, 0xF⟩] 0 = true := by decide

/-- V-DSP-28. -/
theorem test_identifyDevice_firmware :
    endsWith (offered identifyConfig 0x203C6007#32 { Answers.none with idFirmware := .of [0x17#8] })
      .done (some 0x283C7178#32) [.idFirmware] 1 = true := by decide

/-- V-DSP-29. -/
theorem test_identifyDevice_device :
    endsWith (offered identifyConfig 0x203C2003#32 { Answers.none with idDevice := .of [0x42#8] })
      .done (some 0x283C3422#32) [.idDevice] 1 = true := by decide

/-- V-DSP-27. -/
theorem test_unassignedMessage :
    endsWith (offered unassignedConfig 0x2008200C#32 Answers.none)
      .unknownCommand (some 0x28083049#32) [] 1 = true := by decide

/-- V-DSP-2: bad version and bad checksum. -/
theorem test_gate_version_first :
    endsWith (offered decidedConfig 0x40C81280#32 Answers.none)
      .unsupported (some 0x28083027#32) [] 1 = true := by decide

/-- V-DSP-5: bad checksum and Unknown ComponentID. -/
theorem test_gate_checksum_second :
    endsWith (offered p3Config 0x2015400D#32 Answers.none) .crcError none [] 0 = true := by decide

/-- V-DSP-4. -/
theorem test_gate_registry_third :
    endsWith (offered p3Config 0x2015400C#32 Answers.none)
      .unknownCommand (some 0x2815704B#32) [] 1 = true := by decide

/-- V-RSP-2 with `P_OWN_SYSTEM_ID = 3`, and V-RSP-3. -/
theorem test_response_header :
    endsWith (offered (decidedFor 3#2) 0x20C81281#32 { Answers.none with set := .of [true] })
      .done (some 0x38083006#32) [.set 0x20#8 0x28#8] 1 = true ∧
    endsWith (offered { decidedConfig with respVersion := 2#3, supportedVersions := [1#3, 2#3] }
        0x20C81281#32 { Answers.none with set := .of [true] })
      .done (some 0x48083007#32) [.set 0x20#8 0x28#8] 1 = true := by decide

/-- V-CHK-12: scenario 1's word under NIBBLE_XOR passes the gate. -/
theorem test_other_checksum :
    chkVerify { decidedConfig with checksum := .nibbleXor } 0x20C8128D#32 = true := by decide

/-- The text of E1, with names and with `chk` omitted. -/
theorem test_packet_text :
    assemble decidedConfig ⟨.set, 1, .role .host, 3, .named .compThreshold, some 40, none⟩ =
      some 0x20C81281#32 := by decide

/-- `IDENT` is "usable only under a map that gives it a code" (30_encoding.md R85). -/
theorem test_packet_text_ident :
    assemble decidedConfig ⟨.ident, 1, .number 0, 0, .number 0xF0, none, none⟩ = none ∧
    assemble identifyConfig ⟨.ident, 1, .number 0, 0, .named .deviceId, none, none⟩ =
      some 0x203C2003#32 := by decide

/-! ### Witnesses: the hypotheses of each statement can be met -/

/-- E1's packet. -/
def e1 : Packet := ⟨1, 0, 3, 0x20, 1, 0x28, 1⟩

/-- The descriptor of COMP_THRESHOLD. -/
def e1Desc : Descriptor := ⟨.compressor, .compThreshold, .rw, [(0#8, 0xFF#8)]⟩

/-- A core that waits for the answer to E1's `set`, with V-DSP-7's word offered. -/
def waitingState : State :=
  { State.reset with stage := .busy (.setValue e1), rx := [0x20040006#32] }

/-- Each field at its largest fitting value. -/
theorem test_witness_DecodeUndoesEncodeOfFittingFields :
    let f : WidePacket := ⟨7, 3, 31, 255, 3, 255, 15⟩
    f.ver < 2 ^ 3 ∧ f.sys < 2 ^ 2 ∧ f.seq < 2 ^ 5 ∧ f.comp < 2 ^ 8 ∧ f.msg < 2 ^ 2 ∧
      f.val < 2 ^ 8 ∧ f.chk < 2 ^ 4 := by decide

theorem test_witness_InstructionsAndWordsAreInBijection :
    (Instr.setValue e1).wellFormed decidedConfig = true := by decide

theorem test_witness_OpcodeTableNamesTheDecodedInstruction :
    (decodePacket 0x20C81281#32).ver = 1#3 := by decide

/-- Lengths 3 and 5, next to the four bytes of a word. -/
theorem test_witness_ByteImageGivesTheWordBack :
    ([0#8, 0#8, 0#8] : List Byte).length < 4 ∧
    4 < ([0#8, 0#8, 0#8, 0#8, 0#8] : List Byte).length := by decide

theorem test_witness_NibbleSumIsTheSumOfSevenNibblesModSixteen :
    decidedConfig.checksum = .nibbleSum := rfl

/-- Bit 31, and nibble 7 with an error in every bit. -/
theorem test_witness_NibbleSumDetectsSingleNibbleErrors :
    decidedConfig.checksum = .nibbleSum ∧ chkVerify decidedConfig 0x20C81281#32 = true ∧
    31 < 32 ∧ 7 < 8 ∧ (0xF#4 : BitVec 4) ≠ 0#4 := by decide

/-- V-CHK-11 (bit 1 of nibbles 1 and 2), and bit 3 of nibbles 1 and 7. -/
theorem test_witness_NibbleSumMissesCancellingErrors :
    decidedConfig.checksum = .nibbleSum ∧ chkVerify decidedConfig 0x20C81281#32 = true ∧
    (0x20C81281#32).getLsbD (4 * 1 + 1) ≠ (0x20C81281#32).getLsbD (4 * 2 + 1) ∧
    chkVerify decidedConfig (0x20C81281#32 ^^^ (1#32 <<< 5) ^^^ (1#32 <<< 9)) = true ∧
    chkVerify decidedConfig (0x20C81281#32 ^^^ (1#32 <<< 7) ^^^ (1#32 <<< 31)) = true := by
  decide

/-- Both ends of the range 0xE0 to 0xEF. -/
theorem test_witness_MetersAreReadOnlyInEveryAcceptedConfiguration :
    Ready State.reset ∧
    GatesPass decidedConfig ⟨1, 0, 0, 0xE0, 1, 0x10, 0xF⟩
      ⟨.metersStatus, .meterInputLevel, .ro, [(0#8, 0xFF#8)]⟩ ∧
    (∃ k : Chk, GatesPass decidedConfig ⟨1, 0, 0, 0xEF, 1, 0, k⟩
      ⟨.metersStatus, .generic, .ro, [(0#8, 0xFF#8)]⟩) ∧
    (0xE0#8 : CompId).toNat = 0xE0 ∧ (0xEF#8 : CompId).toNat = 0xEF := by decide

/-- A refused configuration; a different configuration presented during a run. -/
theorem test_witness_ExactlyTheStatedConfigurationsAreRefused :
    configProblem { decidedConfig with idFirmwareVersion := 0xF0#8 } = some .identityClash ∧
    (State.afterReset { decidedConfig with idFirmwareVersion := 0xF0#8 }).control = none ∧
    ({ State.reset with control := some (.reconfigure p3Config) } : State).control =
      some (.reconfigure p3Config) ∧ p3Config ≠ State.reset.cfg := by decide

theorem test_witness_BuildResultCarriesTheResultCode :
    configProblem State.reset.cfg = none := by decide

theorem test_witness_BuildValueCarriesTheValue :
    configProblem (State.afterReset p3Config).cfg = none := by decide

/-- A write-only DEVICE_ID, and the decided one with an answer ready. -/
theorem test_witness_ReadDeviceIdAnswersTheIdentityByte :
    Ready (State.afterReset p3Config) ∧
    GatesPass p3Config ⟨1, 0, 0, 0xF0, 0, 0, 1⟩
      ⟨.serviceIdentification, .deviceId, .wo, [(0#8, 0xFF#8)]⟩ ∧
    GatesPass decidedConfig ⟨1, 0, 0, 0xF0, 0, 0, 1⟩
      ⟨.serviceIdentification, .deviceId, .ro, [(0#8, 0xFF#8)]⟩ ∧
    Access.ro ≠ Access.wo ∧
    (offered decidedConfig 0#32 { Answers.none with idDevice := .of [0x42#8] }).answers.idDevice.live =
      0x42#8 :: [] := by decide

/-- A write-only FIRMWARE_VERSION, and the decided one with an answer ready. -/
theorem test_witness_ReadFirmwareVersionAnswersTheVersionByte :
    Ready (State.afterReset p3Config) ∧
    GatesPass p3Config ⟨1, 0, 0, 0xF1, 0, 0, 5⟩
      ⟨.serviceIdentification, .firmwareVersion, .wo, [(0#8, 0xFF#8)]⟩ ∧
    GatesPass decidedConfig ⟨1, 0, 0, 0xF1, 0, 0, 5⟩
      ⟨.serviceIdentification, .firmwareVersion, .ro, [(0#8, 0xFF#8)]⟩ ∧
    Access.ro ≠ Access.wo ∧
    (offered decidedConfig 0#32 { Answers.none with idFirmware := .of [0x17#8] }).answers.idFirmware.live =
      0x17#8 :: [] := by decide

/-- V-DSP-11 (write-only), V-DSP-7 (ok) and V-DSP-8 (not ok). -/
theorem test_witness_ReadValueAnswersWhatTheStoreAnswers :
    Ready (State.afterReset p3Config) ∧
    GatesPass p3Config ⟨1, 0, 0, 0x40, 0, 0, 3⟩ ⟨.equalizer, .generic, .wo, [(0#8, 0xFF#8)]⟩ ∧
    GatesPass decidedConfig ⟨1, 0, 0, 0x10, 0, 0, 6⟩ ⟨.preamp, .generic, .rw, [(0#8, 0xFF#8)]⟩ ∧
    Access.rw ≠ Access.wo ∧
    (offered decidedConfig 0#32 { Answers.none with get := .of [(0xAB#8, true)] }).answers.get.live =
      (0xAB#8, true) :: [] ∧
    (offered decidedConfig 0#32 { Answers.none with get := .of [(0xAB#8, false)] }).answers.get.live =
      (0xAB#8, false) :: [] := by decide

/-- V-DSP-17 (read-only), V-DSP-20 and V-DSP-21 (101 and 100 in the domain 0..100), V-DSP-16. -/
theorem test_witness_SetValueChecksThenCallsTheStore :
    Ready (State.afterReset p3Config) ∧
    GatesPass p3Config ⟨1, 0, 0, 0xE0, 1, 0x10, 0xF⟩
      ⟨.metersStatus, .meterInputLevel, .ro, [(0#8, 0xFF#8)]⟩ ∧
    GatesPass p3Config ⟨1, 0, 0, 0x21, 1, 101, 0xA⟩ ⟨.compressor, .generic, .rw, [(0#8, 100#8)]⟩ ∧
    inDomain [(0#8, 100#8)] 101#8 = false ∧
    GatesPass p3Config ⟨1, 0, 0, 0x21, 1, 100, 9⟩ ⟨.compressor, .generic, .rw, [(0#8, 100#8)]⟩ ∧
    inDomain [(0#8, 100#8)] 100#8 = true ∧ Access.rw ≠ Access.ro ∧
    (offered p3Config 0#32 { Answers.none with set := .of [true] }).answers.set.live = true :: [] ∧
    (offered p3Config 0#32 { Answers.none with set := .of [false] }).answers.set.live = false :: [] := by
  decide

/-- V-DSP-23 and V-DSP-24. -/
theorem test_witness_UpdateValuePushesToTheSink :
    Ready State.reset ∧
    GatesPass decidedConfig ⟨1, 2, 9, 0xE0, 2, 0x80, 0xE⟩
      ⟨.metersStatus, .meterInputLevel, .ro, [(0#8, 0xFF#8)]⟩ ∧
    (offered decidedConfig 0#32 { Answers.none with push := .of [true] }).answers.push.live = true :: [] ∧
    (offered decidedConfig 0#32 { Answers.none with push := .of [false] }).answers.push.live =
      false :: [] := by decide

/-- V-DSP-25. -/
theorem test_witness_ResponseInDeliversAndSendsNothing :
    Ready State.reset ∧ GatesPass decidedConfig ⟨1, 1, 4, 0x20, 3, 0, 6⟩ e1Desc := by decide

/-- V-DSP-28 and V-DSP-29. -/
theorem test_witness_IdentifyDeviceSelectsTheIdentityByte :
    Ready (State.afterReset identifyConfig) ∧
    GatesPass identifyConfig ⟨1, 0, 0, 0xF1, 2, 0, 7⟩
      ⟨.serviceIdentification, .firmwareVersion, .ro, [(0#8, 0xFF#8)]⟩ ∧
    (0xF1#8 : CompId) = identifyConfig.idFirmwareVersion ∧
    GatesPass identifyConfig ⟨1, 0, 0, 0xF0, 2, 0, 3⟩
      ⟨.serviceIdentification, .deviceId, .ro, [(0#8, 0xFF#8)]⟩ ∧
    (0xF0#8 : CompId) ≠ identifyConfig.idFirmwareVersion ∧
    (offered identifyConfig 0#32 { Answers.none with idFirmware := .of [0x17#8] }).answers.idFirmware.live =
      0x17#8 :: [] ∧
    (offered identifyConfig 0#32 { Answers.none with idDevice := .of [0x42#8] }).answers.idDevice.live =
      0x42#8 :: [] := by decide

/-- V-DSP-27. -/
theorem test_witness_UnassignedMessageIsAnUnknownCommand :
    Ready (State.afterReset unassignedConfig) ∧
    GatesPass unassignedConfig ⟨1, 0, 0, 0x20, 2, 0, 0xC⟩ e1Desc := by decide

/-- E11: version 2; and version 0, next to the supported 1. -/
theorem test_witness_UnsupportedVersionIsAnsweredBeforeAnyOtherCheck :
    Ready State.reset ∧
    (Instr.setValue ⟨2, 0, 3, 0x20, 1, 0x28, 3⟩).packet.ver ∉ State.reset.cfg.supportedVersions ∧
    (Instr.readValue ⟨0, 0, 0, 0x10, 0, 0, 4⟩).packet.ver ∉ State.reset.cfg.supportedVersions := by
  decide

/-- E2. -/
theorem test_witness_ChecksumMismatchEndsSilently :
    Ready State.reset ∧ (1#3 : Ver) ∈ State.reset.cfg.supportedVersions ∧
    chkVerify State.reset.cfg (encode (.setValue ⟨1, 0, 3, 0x20, 1, 0x29, 1⟩)) = false := by decide

/-- V-DSP-4. -/
theorem test_witness_UnknownComponentIsAnUnknownCommand :
    Ready (State.afterReset p3Config) ∧ (1#3 : Ver) ∈ p3Config.supportedVersions ∧
    chkVerify p3Config (encode (.readValue ⟨1, 0, 0, 0x55, 0, 0, 0xC⟩)) = true ∧
    lookup p3Config 0x55#8 = none := by decide

theorem test_witness_UnansweredCallLeavesTheCoreBusy :
    Ready State.reset ∧ GatesPass State.reset.cfg e1 e1Desc ∧
    checksPass (.setValue e1) e1Desc = true ∧
    handlerCall State.reset.cfg (.setValue e1) = some (.set 0x20#8 0x28#8) ∧
    answerReady State.reset.answers (.set 0x20#8 0x28#8) = false := by decide

/-- Without an answer, with one, and with reset asserted. -/
theorem test_witness_UnansweredCallSticksUntilAnswerOrReset :
    configProblem waitingState.cfg = none ∧ waitingState.stage = .busy (.setValue e1) ∧
    outstanding waitingState = some (.set 0x20#8 0x28#8) ∧ waitingState.control = none ∧
    answerReady waitingState.answers (.set 0x20#8 0x28#8) = false ∧
    answerReady { Answers.none with set := .of [false] } (.set 0x20#8 0x28#8) = true ∧
    ({ waitingState with control := some .reset } : State).control = some .reset := by decide

theorem test_witness_LateAnswersGiveTheSameOutcome :
    Ready State.reset ∧ State.reset.control = none ∧
    exec (.setValue e1) State.reset = .next { State.reset with stage := .busy (.setValue e1) } ∧
    ({ State.reset with stage := .busy (.setValue e1) } : State).stage ≠ .idle :=
  ⟨by decide, rfl, rfl, by decide⟩

/-- A BUSY core with a word held, and an IDLE core with a word offered. -/
theorem test_witness_OfferedWordsAreHeldWhileBusy :
    configProblem waitingState.cfg = none ∧ waitingState.control = none ∧
    waitingState.stage = .busy (.setValue e1) ∧
    Ready (offered decidedConfig 0x20C81281#32 Answers.none) ∧
    (offered decidedConfig 0x20C81281#32 Answers.none).control = none ∧
    (offered decidedConfig 0x20C81281#32 Answers.none).rx = 0x20C81281#32 :: [] := by decide

theorem test_witness_StepRunsTheDecodedInstruction :
    Ready (offered decidedConfig 0x20C81281#32 Answers.none) ∧
    (offered decidedConfig 0x20C81281#32 Answers.none).control = none ∧
    (offered decidedConfig 0x20C81281#32 Answers.none).rx = 0x20C81281#32 :: [] := by decide

theorem test_witness_NoOfferedWordStartsNoTransaction :
    Ready State.reset ∧ State.reset.control = none ∧ State.reset.rx = [] := by decide

/-- Reset while waiting, with the abandoned call's answer there and not there; reset with a new
configuration while idle. -/
theorem test_witness_ResetAbandonsTheTransactionInFlight :
    ({ waitingState with control := some .reset } : State).control = some .reset ∧
    outstanding waitingState = some (.set 0x20#8 0x28#8) ∧
    ({ State.reset with control := some (.resetWith p3Config) } : State).control =
      some (.resetWith p3Config) ∧ outstanding State.reset = none := by decide

theorem test_witness_NothingWritesConfigurationOrForeignCounters :
    exec (.setValue e1) State.reset = .next { State.reset with stage := .busy (.setValue e1) } ∧
    step State.reset = .next State.reset ∧ State.reset.control = none := ⟨rfl, rfl, rfl⟩

theorem test_witness_TransactionCountsHold :
    Ready State.reset ∧ Ready (State.afterReset p3Config) := by decide

/-- Two states that differ in the other counters, the words offered and an answer to an abandoned
call. -/
theorem test_witness_OutcomeDependsOnWordConfigCounterAndAnswersOnly :
    let s := State.reset
    let s' : State :=
      { State.reset with
          seq := #v[9#5, 0#5, 7#5, 1#5], rx := [1#32], answers := { Answers.none with set := ⟨1, [true]⟩ } }
    s.cfg = s'.cfg ∧ s.stage = s'.stage ∧ s.stage = .idle ∧ ownSeq s = ownSeq s' ∧
      liveAnswers s.answers = liveAnswers s'.answers ∧
      exec (.setValue e1) s = .next { s with stage := .busy (.setValue e1) } ∧
      exec (.setValue e1) s' = .next { s' with stage := .busy (.setValue e1) } :=
  ⟨rfl, rfl, rfl, by decide, by decide, rfl, rfl⟩

/-- V-DSP-7's word and V-DSP-15's: SystemID, PacketSequence, CheckSum and MessageValue differ. -/
theorem test_witness_IgnoredFieldsDoNotChangeTheOutcome :
    State.reset.stage = .idle ∧
    chkVerify State.reset.cfg 0x20040006#32 = true ∧
    chkVerify State.reset.cfg 0x3FC40FF0#32 = true ∧
    (decodePacket 0x20040006#32).ver = (decodePacket 0x3FC40FF0#32).ver ∧
    (decodePacket 0x20040006#32).comp = (decodePacket 0x3FC40FF0#32).comp ∧
    (decodePacket 0x20040006#32).msg = (decodePacket 0x3FC40FF0#32).msg ∧
    msgTypeOf State.reset.cfg (decodePacket 0x20040006#32).msg = some .readValue := by decide

/-- V-DSP-30: E1's response fed back. -/
theorem test_witness_OutboundWordsAreDeliveredNotAnswered :
    Ready State.reset ∧ IsResponse State.reset.cfg 0#5 0x28083005#32 ∧
    State.reset.cfg.respVersion ∈ State.reset.cfg.supportedVersions ∧
    lookup State.reset.cfg (decodePacket 0x28083005#32).comp = some e1Desc :=
  ⟨by decide, ⟨by decide, by decide, by decide, by decide, by decide⟩, by decide, by decide⟩

theorem test_witness_EveryStepUnderAnAcceptedConfigurationGoesOn :
    configProblem waitingState.cfg = none ∧ waitingState.control = none := by decide

/-- E1's transaction done and a second one in flight: the invariant and a step. -/
theorem test_witness_RunInvariantIsKeptByEveryStep :
    let s : State :=
      { waitingState with
          seq := #v[0#5, 1#5, 0#5, 0#5]
          history := [⟨0x20C81281#32, .done, some 0x28083005#32⟩]
          calls := [⟨.set 0x20#8 0x28#8, .ok true⟩] }
    RunInv s ∧ step s = .next s := by
  refine ⟨⟨by decide, by decide, ?_, ?_, by decide, fun _ => ⟨rfl, rfl⟩, ?_⟩, rfl⟩
  · intro k w h
    match k with
    | 0 =>
      cases h
      exact ⟨by decide, by decide, by decide, by decide, by decide⟩
    | k + 1 => cases h
  · intro o h
    rw [List.mem_singleton] at h
    subst h
    constructor
    · intro h
      cases h
    · intro h
      rcases h with h | ⟨-, p, h⟩
      · cases h
      · have e : decode decidedConfig 0x20C81281#32 = .setValue e1 := by decide
        exact absurd (e.symm.trans h) (by simp)
  · intro i h
    cases h
    exact ⟨by decide, by decide, e1Desc, by decide, by decide⟩

theorem test_witness_OfferedWordsAreServedInOrder :
    let s := offered decidedConfig 0x20C81281#32
      ⟨.of [(0#8, true)], .of [true], .of [true], .of [0#8], .of [0#8]⟩
    Ready s ∧ s.control = none ∧ s.rx = [0x20C81281#32] ∧ answersFor s.answers 1 :=
  ⟨by decide, rfl, rfl, by simp [answersFor, offered, Port.of, Port.live]⟩

theorem test_witness_ResultCodesOnBusAndWire :
    ({ State.reset with res := some .invalidValue } : State).res = some .invalidValue := rfl

/-- `chk` omitted, and `chk` given wider than its field. -/
theorem test_witness_PacketTextGivesItsWord :
    assemble decidedConfig ⟨.set, 1, .role .host, 3, .named .compThreshold, some 40, none⟩ =
      some 0x20C81281#32 ∧
    assemble decidedConfig ⟨.set, 1, .role .host, 3, .named .compThreshold, some 41, some 17⟩ =
      some 0x20C81291#32 := by decide

/-- A core that waits, with reset asserted, and an instruction that ends after the reset. -/
theorem test_witness_AnswerToAnAbandonedCallIsIgnoredWheneverItComes :
    outstanding { waitingState with control := some .reset } = some (.set 0x20#8 0x28#8) ∧
    ({ waitingState with control := some .reset } : State).control = some .reset ∧
    exec (.setValue e1) State.reset = .next { State.reset with stage := .busy (.setValue e1) } :=
  ⟨by decide, rfl, rfl⟩

/-- 70_reset_and_hazards.md R251: the answer to E1's abandoned `set` comes after the reset and is
ignored, so that the same word waits again; the next answer is the one to its call. -/
theorem test_late_answer_after_reset :
    ∃ t, step { waitingState with control := some .reset, rx := [] } = .next t ∧
      exec (.setValue e1) { t with answers := { t.answers with set := ⟨t.answers.set.abandoned, [true]⟩ } } =
        .next { t with stage := .busy (.setValue e1)
                       answers := { t.answers with set := ⟨1, [true]⟩ } } ∧
      endsWith { t with rx := [0x20C81281#32]
                        answers := { t.answers with set := ⟨t.answers.set.abandoned, [true, false]⟩ } }
        .failure (some 0x28083016#32) [.set 0x20#8 0x28#8] 1 = true :=
  ⟨_, rfl, rfl, by decide⟩

end Sys2Proof.Tests
end

section
/-! PROOFS. What reset leaves in the core (10_state.md R30). -/

namespace Sys2Proof.Machine

@[simp] theorem afterReset_cfg (cfg : Config) : (State.afterReset cfg).cfg = cfg := rfl

@[simp] theorem afterReset_seq (cfg : Config) :
    (State.afterReset cfg).seq = seqAtReset cfg.ownSystemId cfg.seqInit := rfl

@[simp] theorem afterReset_stage (cfg : Config) : (State.afterReset cfg).stage = .idle := rfl

@[simp] theorem afterReset_res (cfg : Config) : (State.afterReset cfg).res = none := rfl

@[simp] theorem afterReset_tx (cfg : Config) : (State.afterReset cfg).tx = none := rfl

/-- Only an in-flight transaction can have a call outstanding (10_state.md R27, R29). -/
theorem outstanding_of_idle (s : State) (h : s.stage = .idle) : outstanding s = none := by
  simp [outstanding, h]

@[simp] theorem seqGet_afterReset_own (cfg : Config) :
    seqGet (State.afterReset cfg).seq cfg.ownSystemId = cfg.seqInit := by
  simp [seqGet_seqAtReset]

theorem seqGet_afterReset_other (cfg : Config) (j : SysId) (h : j ≠ cfg.ownSystemId) :
    seqGet (State.afterReset cfg).seq j = 0#5 := by
  simp [seqGet_seqAtReset, h]

/-- Where `P_SEQ_INIT` is 0, as decided (92_eei_decisions.md D38), the own entry is no exception. -/
theorem seqGet_afterReset_of_seqInit_zero (cfg : Config) (hinit : cfg.seqInit = 0#5) (j : SysId) :
    seqGet (State.afterReset cfg).seq j = 0#5 := by
  by_cases hj : j = cfg.ownSystemId
  · rw [hj, seqGet_afterReset_own, hinit]
  · exact seqGet_afterReset_other cfg j hj

/-- Settles O38: the own entry and the others are read from the counter file after reset, no call is
outstanding because the stage is IDLE, and `State.reset` is the case of the decided `P_SEQ_INIT`. -/
theorem resetLeavesTheStatedValues : Obligations.ResetLeavesTheStatedValues := by
  refine ⟨fun cfg => ?eachConfig, ?decided⟩
  case eachConfig =>
    exact ⟨seqGet_afterReset_own cfg, seqGet_afterReset_other cfg, afterReset_stage cfg,
      afterReset_res cfg, afterReset_tx cfg, outstanding_of_idle _ (afterReset_stage cfg),
      afterReset_cfg cfg⟩
  case decided =>
    exact ⟨afterReset_stage _, afterReset_res _, afterReset_tx _,
      seqGet_afterReset_of_seqInit_zero decidedConfig rfl⟩

end Sys2Proof.Machine
end

section
/-! PROOFS. packet_codec: DECODE and ENCODE on words and on natural numbers (40_packet_codec.md R100
to R102). -/

namespace Sys2Proof

/-- A bit field read as a number: shifted down, then reduced modulo its width. -/
theorem toNat_extractLsb'_eq_div_mod {n : Nat} (start len : Nat) (w : BitVec n) :
    (w.extractLsb' start len).toNat = w.toNat / 2 ^ start % 2 ^ len := by
  rw [BitVec.extractLsb'_toNat, Nat.shiftRight_eq_div_pow]

/-- Concatenation as arithmetic: the high part moves up by the width of the low part. -/
theorem toNat_append_eq_mul_add {m n : Nat} (x : BitVec m) (y : BitVec n) :
    (x ++ y).toNat = x.toNat * 2 ^ n + y.toNat := by
  rw [BitVec.toNat_append, ← Nat.shiftLeft_add_eq_or_of_lt y.isLt, Nat.shiftLeft_eq]

/-- ENCODE as a number: each field at its position (30_encoding.md R70). -/
theorem encodePacket_toNat (p : Packet) :
    (encodePacket p).toNat =
      p.ver.toNat * 2 ^ 29 + p.sys.toNat * 2 ^ 27 + p.seq.toNat * 2 ^ 22 + p.comp.toNat * 2 ^ 14 +
        p.msg.toNat * 2 ^ 12 + p.val.toNat * 2 ^ 4 + p.chk.toNat := by
  simp only [encodePacket, toNat_append_eq_mul_add]
  ring

/-- DECODE undoes ENCODE on packets of fixed-width fields (40_packet_codec.md R102). At a field's
position, the sum of `encodePacket_toNat` loses the fields below it to the division and the fields
above it, multiples of the modulus, to the remainder. -/
@[simp] theorem decodePacket_encodePacket (p : Packet) : decodePacket (encodePacket p) = p := by
  obtain ⟨ver, sys, seq, comp, msg, val, chk⟩ := p
  simp only [decodePacket, Packet.mk.injEq, ← BitVec.toNat_inj, toNat_extractLsb'_eq_div_mod,
    encodePacket_toNat]
  omega

end Sys2Proof

namespace Sys2Proof.Machine

/-- Settles O1: each field of DECODE is a bit field of the word, and CheckSum starts at bit 0. -/
theorem decodeReadsEveryFieldOfAnyWord : Obligations.DecodeReadsEveryFieldOfAnyWord := by
  intro w
  have chk_at_bit_zero : (decodePacket w).chk.toNat = w.toNat % 2 ^ 4 := by
    rw [decodePacket, toNat_extractLsb'_eq_div_mod, pow_zero, Nat.div_one]
  exact ⟨toNat_extractLsb'_eq_div_mod 29 3 w, toNat_extractLsb'_eq_div_mod 27 2 w,
    toNat_extractLsb'_eq_div_mod 22 5 w, toNat_extractLsb'_eq_div_mod 14 8 w,
    toNat_extractLsb'_eq_div_mod 12 2 w, toNat_extractLsb'_eq_div_mod 4 8 w, chk_at_bit_zero⟩

/-- Settles O3: ENCODE places the truncated fields, and truncation is reduction modulo the width. -/
theorem encodeKeepsLowBitsOfEveryField : Obligations.EncodeKeepsLowBitsOfEveryField := by
  intro f
  simp only [encodeWide, encodePacket_toNat, truncPacket, BitVec.toNat_ofNat]

/-- Settles O4: DECODE gives back the truncated packet, and a field that fits is its own truncation. -/
theorem decodeUndoesEncodeOfFittingFields : Obligations.DecodeUndoesEncodeOfFittingFields := by
  intro f hver hsys hseq hcomp hmsg hval hchk
  have roundTrip : decodePacket (encodeWide f) = truncPacket f :=
    decodePacket_encodePacket (truncPacket f)
  simp only [roundTrip, truncPacket, BitVec.toNat_ofNat]
  exact ⟨Nat.mod_eq_of_lt hver, Nat.mod_eq_of_lt hsys, Nat.mod_eq_of_lt hseq, Nat.mod_eq_of_lt hcomp,
    Nat.mod_eq_of_lt hmsg, Nat.mod_eq_of_lt hval, Nat.mod_eq_of_lt hchk⟩

end Sys2Proof.Machine
end

section
/-! PROOFS. checksum_validator: the code as arithmetic on the covered bits, and verification as an
equation of codes (41_checksum_validator.md R120, R121). -/

namespace Sys2Proof.Machine

/-! ### Nibbles and their sum -/

theorem nibble_toNat (h : Covered) (k : Nat) : (nibble h k).toNat = h.toNat / 16 ^ k % 16 := by
  simp only [nibble, toNat_extractLsb'_eq_div_mod, pow_mul, Nat.reducePow]

/-- The additions wrap at four bits, so the code is the sum of the nibbles reduced once, mod 16. -/
theorem nibbleSum_toNat (h : Covered) :
    (nibbleSum h).toNat =
      ((nibble h 6).toNat + (nibble h 5).toNat + (nibble h 4).toNat + (nibble h 3).toNat +
        (nibble h 2).toNat + (nibble h 1).toNat + (nibble h 0).toNat) % 16 := by
  simp only [nibbleSum, BitVec.toNat_add, Nat.reducePow, Nat.mod_add_mod]

theorem checksum_of_nibbleSum {cfg : Config} (hcfg : cfg.checksum = .nibbleSum) (h : Covered) :
    checksum cfg h = nibbleSum h := by
  rw [checksum, hcfg]

/-- Settles O9: the code is the nibbles' sum, and each nibble is a base-16 digit of the covered bits. -/
theorem nibbleSumIsTheSumOfSevenNibblesModSixteen :
    Obligations.NibbleSumIsTheSumOfSevenNibblesModSixteen := by
  intro cfg h hcfg
  rw [checksum_of_nibbleSum hcfg, nibbleSum_toNat]
  simp only [nibble_toNat, pow_zero, pow_one, Nat.div_one]

/-! ### Verification -/

/-- `w[31:4]` is the word without its lowest base-16 digit. -/
theorem coveredBits_eq_ofNat_div (w : Word) : coveredBits w = BitVec.ofNat 28 (w.toNat / 16) := by
  simp only [← BitVec.toNat_inj, coveredBits, toNat_extractLsb'_eq_div_mod, BitVec.toNat_ofNat,
    Nat.reducePow]

/-- `w[3:0]` is the lowest base-16 digit of the word. -/
theorem chkBits_toNat (w : Word) : (w.extractLsb' 0 4).toNat = w.toNat % 16 := by
  simp only [toNat_extractLsb'_eq_div_mod, pow_zero, Nat.div_one, Nat.reducePow]

theorem chkVerify_iff (cfg : Config) (w : Word) :
    chkVerify cfg w = true ↔ checksum cfg (coveredBits w) = w.extractLsb' 0 4 := by
  rw [chkVerify, beq_iff_eq]

/-- Settles O10: codes are equal exactly if their numbers are, and both bit fields of the word are
read as numbers. -/
theorem verifyComparesTheCodeOfTheUpperBits : Obligations.VerifyComparesTheCodeOfTheUpperBits := by
  intro cfg w
  rw [chkVerify_iff, ← BitVec.toNat_inj, coveredBits_eq_ofNat_div, chkBits_toNat]

end Sys2Proof.Machine
end

section
/-! PROOFS. component_registry: the range table partitions the ComponentIDs
(42_component_registry.md R140). -/

namespace Sys2Proof.Machine

/-! ### The rows of the table -/

/-- The ID lies between the first and the last ID of a row. -/
def RowContains (r : CompId × CompId × Category) (c : CompId) : Prop := r.1 ≤ c ∧ c ≤ r.2.1

/-- The test that the search of the table runs on each row. -/
theorem rowTest_iff (r : CompId × CompId × Category) (c : CompId) :
    (decide (r.1 ≤ c) && decide (c ≤ r.2.1)) = true ↔ RowContains r c := by
  rw [Bool.and_eq_true, decide_eq_true_iff, decide_eq_true_iff, RowContains]

/-- Of two different rows, one ends before the other starts. -/
theorem rangeTable_disjoint :
    ∀ r ∈ rangeTable, ∀ r' ∈ rangeTable, r ≠ r' → r.2.1 < r'.1 ∨ r'.2.1 < r.1 := by
  decide

/-- "Each 8-bit ComponentID belongs to exactly one category": no two rows share an ID. -/
theorem rangeTable_row_unique {r r' : CompId × CompId × Category} {c : CompId}
    (hr : r ∈ rangeTable) (hr' : r' ∈ rangeTable) (hc : RowContains r c) (hc' : RowContains r' c) :
    r = r' := by
  obtain ⟨first_le, le_last⟩ := hc
  obtain ⟨first_le', le_last'⟩ := hc'
  by_contra hne
  rcases rangeTable_disjoint r hr r' hr' hne with before | after
  · exact absurd (BitVec.le_trans first_le' le_last) (BitVec.not_le.mpr before)
  · exact absurd (BitVec.le_trans first_le le_last') (BitVec.not_le.mpr after)

/-- The search of the table finds the row that contains the ID, because it is the only one. -/
theorem categoryOf_of_row {cat : Category} {c : CompId} (lo hi : CompId)
    (hrow : (lo, hi, cat) ∈ rangeTable) (hlo : lo ≤ c) (hhi : c ≤ hi) : categoryOf c = some cat := by
  unfold categoryOf
  cases hfind : rangeTable.find? fun r => decide (r.1 ≤ c) && decide (c ≤ r.2.1) with
  | none => exact absurd ((rowTest_iff _ c).mpr ⟨hlo, hhi⟩) (List.find?_eq_none.mp hfind _ hrow)
  | some r =>
    have passed := List.find?_some hfind
    have found_contains : RowContains r c := (rowTest_iff r c).mp passed
    rw [rangeTable_row_unique (List.mem_of_find?_eq_some hfind) hrow found_contains ⟨hlo, hhi⟩,
      Option.map_some]

/-! ### The ranges by their ends -/

/-- The category of an ID by the ends of the ranges, in the order of the table. -/
def categoryByRange (c : CompId) : Category :=
  if c.toNat < 0x20 then .preamp else if c.toNat < 0x40 then .compressor
  else if c.toNat < 0x60 then .equalizer else if c.toNat < 0x80 then .effects
  else if c.toNat < 0xA0 then .modulation else if c.toNat < 0xC0 then .routing
  else if c.toNat < 0xE0 then .dynamics else if c.toNat < 0xF0 then .metersStatus
  else .serviceIdentification

/-- Each branch names the row that contains the ID: the ranges meet end to end, so the failed tests
before a branch give the row's first ID. -/
theorem categoryOf_eq_categoryByRange (c : CompId) : categoryOf c = some (categoryByRange c) := by
  unfold categoryByRange
  split_ifs
  · exact categoryOf_of_row 0x00#8 0x1F#8 (by decide) (by bv_omega) (by bv_omega)
  · exact categoryOf_of_row 0x20#8 0x3F#8 (by decide) (by bv_omega) (by bv_omega)
  · exact categoryOf_of_row 0x40#8 0x5F#8 (by decide) (by bv_omega) (by bv_omega)
  · exact categoryOf_of_row 0x60#8 0x7F#8 (by decide) (by bv_omega) (by bv_omega)
  · exact categoryOf_of_row 0x80#8 0x9F#8 (by decide) (by bv_omega) (by bv_omega)
  · exact categoryOf_of_row 0xA0#8 0xBF#8 (by decide) (by bv_omega) (by bv_omega)
  · exact categoryOf_of_row 0xC0#8 0xDF#8 (by decide) (by bv_omega) (by bv_omega)
  · exact categoryOf_of_row 0xE0#8 0xEF#8 (by decide) (by bv_omega) (by bv_omega)
  · exact categoryOf_of_row 0xF0#8 0xFF#8 (by decide) (by bv_omega) (by bv_omega)

/-! ### The wiring -/

/-- The category of a block of 32 IDs below `0xE0`, counted from 0. -/
def categoryOfBlock : Nat → Category
  | 0 => .preamp
  | 1 => .compressor
  | 2 => .equalizer
  | 3 => .effects
  | 4 => .modulation
  | 5 => .routing
  | _ => .dynamics

/-- `c[7:5]` counts blocks of 32 IDs. -/
theorem categoryWired_of_block {c : CompId} (k : Nat) (below : c.toNat < 0xE0)
    (block : c.toNat / 32 = k) : categoryWired c = categoryOfBlock k := by
  have topBits : (c.extractLsb' 5 3).toNat = k := by
    rw [toNat_extractLsb'_eq_div_mod]
    omega
  rw [categoryWired, if_pos (show c < 0xE0#8 from below), topBits]
  rfl

/-- `c[4]` tells the two halves of the last block apart. -/
theorem categoryWired_of_lastBlock {c : CompId} (last : 0xE0 ≤ c.toNat) :
    categoryWired c = if c.toNat < 0xF0 then .metersStatus else .serviceIdentification := by
  have bitFour : c.getLsbD 4 = true ↔ ¬ c.toNat < 0xF0 := by
    rw [BitVec.getLsbD, Nat.testBit_eq_decide_div_mod_eq, decide_eq_true_iff]
    omega
  rw [categoryWired, if_neg (show ¬ c < 0xE0#8 from Nat.not_lt.mpr last)]
  simp only [bitFour, ite_not]

theorem categoryWired_eq_categoryByRange (c : CompId) : categoryWired c = categoryByRange c := by
  unfold categoryByRange
  split_ifs with _ _ _ _ _ _ below_E0 below_F0
  · exact categoryWired_of_block 0 (by omega) (by omega)
  · exact categoryWired_of_block 1 (by omega) (by omega)
  · exact categoryWired_of_block 2 (by omega) (by omega)
  · exact categoryWired_of_block 3 (by omega) (by omega)
  · exact categoryWired_of_block 4 (by omega) (by omega)
  · exact categoryWired_of_block 5 (by omega) (by omega)
  · exact categoryWired_of_block 6 (by omega) (by omega)
  · rw [categoryWired_of_lastBlock (by omega), if_pos below_F0]
  · rw [categoryWired_of_lastBlock (by omega), if_neg below_F0]

/-- Settles O13: the search of the table and the wiring both give the category by range. -/
theorem categoriesFollowTheRangeTable : Obligations.CategoriesFollowTheRangeTable := by
  intro c
  rw [categoryWired_eq_categoryByRange]
  exact ⟨categoryOf_eq_categoryByRange c, categoryOf_eq_categoryByRange c⟩

end Sys2Proof.Machine
end

section
/-! PROOFS. response_encoder: a finished word verifies, and what this node builds is a response
(44_response_encoder.md R200 to R203, R205). -/

namespace Sys2Proof.Machine

/-! ### FINISH -/

/-- CheckSum lies below the covered bits. -/
theorem coveredBits_encodePacket_chk (f : Packet) (k k' : Chk) :
    coveredBits (encodePacket { f with chk := k }) =
      coveredBits (encodePacket { f with chk := k' }) := by
  have upper_eq : (encodePacket { f with chk := k }).toNat / 16 =
      (encodePacket { f with chk := k' }).toNat / 16 := by
    simp only [encodePacket_toNat]
    omega
  rw [coveredBits_eq_ofNat_div, coveredBits_eq_ofNat_div, upper_eq]

/-- The lowest four bits of a packet's word are its CheckSum. -/
theorem chkBits_encodePacket (p : Packet) : (encodePacket p).extractLsb' 0 4 = p.chk :=
  congrArg Packet.chk (decodePacket_encodePacket p)

/-- FINISH computes the code over the bits that CHK_VERIFY reads (44_response_encoder.md R202). -/
theorem chkVerify_finish (cfg : Config) (f : Packet) : chkVerify cfg (finish cfg f) = true := by
  rw [chkVerify_iff, finish, chkBits_encodePacket]
  exact congrArg (checksum cfg) (coveredBits_encodePacket_chk f _ _)

theorem decodePacket_finish (cfg : Config) (f : Packet) :
    decodePacket (finish cfg f) =
      { f with chk := checksum cfg (coveredBits (encodePacket { f with chk := 0#4 })) } :=
  decodePacket_encodePacket _

/-! ### The Response code -/

theorem oneResponseCode_of_accepted {cfg : Config} (hcfg : configProblem cfg = none) :
    oneResponseCode cfg = true := by
  cases hone : oneResponseCode cfg with
  | true => rfl
  | false => simp [configProblem, hone] at hcfg

theorem msgTypeOf_of_codeOf {cfg : Config} {t : MsgType} {m : MsgCode}
    (hm : codeOf cfg t = some m) : msgTypeOf cfg m = some t := by
  have passed := List.find?_some hm
  exact eq_of_beq passed

/-- A message type that the map gives to some code has a lowest one. -/
theorem exists_codeOf_of_mapped {cfg : Config} {t : MsgType} (ht : t ∈ mappedTypes cfg) :
    ∃ m, codeOf cfg t = some m := by
  obtain ⟨m, hm, maps⟩ := List.mem_filterMap.mp ht
  exact Option.isSome_iff_exists.mp (List.find?_isSome.mpr ⟨m, hm, beq_iff_eq.mpr maps⟩)

/-- In an accepted configuration RESP_CODE is a code of Response (44_response_encoder.md R205). -/
theorem msgTypeOf_respCode {cfg : Config} (hcfg : configProblem cfg = none) :
    msgTypeOf cfg (respCode cfg) = some .response := by
  have count_eq_one : (mappedTypes cfg).count .response = 1 :=
    eq_of_beq (oneResponseCode_of_accepted hcfg)
  have mapped : .response ∈ mappedTypes cfg := List.count_pos_iff.mp (by omega)
  obtain ⟨m, hm⟩ := exists_codeOf_of_mapped mapped
  rw [respCode, hm, Option.getD_some]
  exact msgTypeOf_of_codeOf hm

/-! ### The words of BUILD_RESULT and BUILD_VALUE -/

theorem isResponse_buildResponse {s : State} (hcfg : configProblem s.cfg = none) (c : CompId)
    (v : Byte) : IsResponse s.cfg (ownSeq s) (buildResponse c v s).1 where
  ver := by rw [buildResponse, decodePacket_finish]
  sys := by rw [buildResponse, decodePacket_finish]
  seq := by rw [buildResponse, decodePacket_finish, nextSeq_fst]
  msg := by rw [buildResponse, decodePacket_finish]; exact msgTypeOf_respCode hcfg
  chk := chkVerify_finish _ _

theorem buildResponse_comp (c : CompId) (v : Byte) (s : State) :
    (decodePacket (buildResponse c v s).1).comp = c := by
  rw [buildResponse, decodePacket_finish]

theorem buildResponse_val (c : CompId) (v : Byte) (s : State) :
    (decodePacket (buildResponse c v s).1).val = v := by
  rw [buildResponse, decodePacket_finish]

end Sys2Proof.Machine
end

section
/-! PROOFS. How a transaction ends: with a reply or silently, from any state that its handler has
reached (43_command_dispatcher.md R161, R184). -/

namespace Sys2Proof.Machine

/-! ### The state a handler has reached -/

/-- `u` is reached from `s` inside one transaction that has completed the calls `made` and not yet
emitted: only stage, outputs, answers and calls may differ. -/
structure MidTransaction (s u : State) (made : List CallRecord) : Prop where
  cfg     : u.cfg = s.cfg
  seq     : u.seq = s.seq
  rx      : u.rx = s.rx
  control : u.control = s.control
  history : u.history = s.history
  calls   : u.calls = s.calls ++ made

/-- A completed call: its answer is noted, and `rest` are the ports without it. -/
def answered (c : Call) (a : Answer) (rest : Answers) (s : State) : State :=
  record c a { s with answers := rest }

theorem midTransaction_accept (i : Instr) (s : State) : MidTransaction s (accept i s) [] where
  cfg := rfl
  seq := rfl
  rx := rfl
  control := rfl
  history := rfl
  calls := (List.append_nil _).symm

theorem MidTransaction.afterAnswer {s u : State} (mid : MidTransaction s u []) (c : Call)
    (a : Answer) (rest : Answers) : MidTransaction s (answered c a rest u) [⟨c, a⟩] where
  cfg := mid.cfg
  seq := mid.seq
  rx := mid.rx
  control := mid.control
  history := mid.history
  calls := by
    have calls_eq : u.calls = s.calls := by rw [mid.calls, List.append_nil]
    exact congrArg (· ++ [_]) calls_eq

theorem MidTransaction.ownSeq_eq {s u : State} {made : List CallRecord}
    (mid : MidTransaction s u made) : ownSeq u = ownSeq s := by
  rw [ownSeq, ownSeq, mid.cfg, mid.seq]

/-! ### The two ends -/

/-- The common form of the two replies: result `r` on `res`, and a response that carries `v`. -/
def replyWith (p : Packet) (r : ResultCode) (v : Byte) (s : State) : State :=
  emit p r (some (buildResponse p.comp v s).1) (nextSeq s).2

theorem replyResult_eq_replyWith (p : Packet) (r : ResultCode) (s : State) :
    replyResult p r s = replyWith p r (resultWire s.cfg r) s := rfl

theorem replyValue_eq_replyWith (p : Packet) (v : Byte) (s : State) :
    replyValue p v s = replyWith p .done v s := rfl

@[simp] theorem replyWith_seq (p : Packet) (r : ResultCode) (v : Byte) (s : State) :
    (replyWith p r v s).seq = seqSet s.seq s.cfg.ownSystemId (ownSeq s + 1#5) := rfl

@[simp] theorem ownSeq_replyWith (p : Packet) (r : ResultCode) (v : Byte) (s : State) :
    ownSeq (replyWith p r v s) = ownSeq s + 1#5 :=
  seqGet_seqSet_self _ _ _

/-- A reply moves no counter entry but the own one (44_response_encoder.md R203, R204). -/
theorem MidTransaction.kept_replyWith {s u : State} {made : List CallRecord}
    (mid : MidTransaction s u made) (p : Packet) (r : ResultCode) (v : Byte) :
    Kept s (replyWith p r v u) where
  cfg := mid.cfg
  rx := mid.rx
  control := mid.control
  others := by
    intro j hj
    rw [replyWith_seq, mid.cfg, seqGet_seqSet_other _ _ _ _ hj, mid.seq]

/-- A transaction that replies ends as the statements say of one: the word it sends is the response
built with the counter value of its start. -/
theorem MidTransaction.replied {s u : State} {made : List CallRecord}
    (mid : MidTransaction s u made) (hcfg : configProblem s.cfg = none) (p : Packet)
    (r : ResultCode) (v : Byte) : Replied s (replyWith p r v u) p r v made where
  kept := mid.kept_replyWith p r v
  stage := rfl
  res := rfl
  word := by
    have isResponse := isResponse_buildResponse (mid.cfg ▸ hcfg) p.comp v
    rw [mid.cfg, mid.ownSeq_eq] at isResponse
    exact ⟨_, rfl, isResponse, buildResponse_comp _ _ _, buildResponse_val _ _ _,
      congrArg (· ++ [_]) mid.history⟩
  own := by rw [ownSeq_replyWith, mid.ownSeq_eq, BitVec.toNat_add]; rfl
  calls := mid.calls

theorem MidTransaction.replied_replyResult {s u : State} {made : List CallRecord}
    (mid : MidTransaction s u made) (hcfg : configProblem s.cfg = none) (p : Packet)
    (r : ResultCode) : Replied s (replyResult p r u) p r (resultWire s.cfg r) made := by
  rw [replyResult_eq_replyWith, mid.cfg]
  exact mid.replied hcfg p r _

theorem MidTransaction.endedSilently {s u : State} {made : List CallRecord}
    (mid : MidTransaction s u made) (p : Packet) (r : ResultCode) :
    EndedSilently s (emit p r none u) p r made where
  kept := ⟨mid.cfg, mid.rx, mid.control, fun j _ => congrArg (seqGet · j) mid.seq⟩
  stage := rfl
  res := rfl
  tx := rfl
  seq := mid.seq
  history := congrArg (· ++ [_]) mid.history
  calls := mid.calls

/-! ### Instructions that end in the step that accepts them -/

/-- An instruction that replies with a result code before any call. -/
theorem replied_of_exec_eq_replyResult {s : State} {i : Instr} {r : ResultCode} (hs : Ready s)
    (hexec : exec i s = .next (replyResult i.packet r (accept i s))) :
    ∃ t, exec i s = .next t ∧ t.answers = s.answers ∧
      Replied s t i.packet r (resultWire s.cfg r) [] :=
  ⟨_, hexec, rfl, (midTransaction_accept i s).replied_replyResult hs.1 i.packet r⟩

/-- An instruction that replies once its call is answered. -/
theorem replied_of_exec_eq_replyWith {s : State} {i : Instr} {r : ResultCode} {v : Byte} {c : Call}
    {a : Answer} {rest : Answers} (hs : Ready s)
    (hexec : exec i s = .next (replyWith i.packet r v (answered c a rest (accept i s)))) :
    ∃ t, exec i s = .next t ∧ t.answers = rest ∧ Replied s t i.packet r v [⟨c, a⟩] :=
  ⟨_, hexec, rfl, ((midTransaction_accept i s).afterAnswer c a rest).replied hs.1 i.packet r v⟩

end Sys2Proof.Machine
end

section
/-! PROOFS. command_dispatcher, the gates: what an instruction that fails one answers
(43_command_dispatcher.md R160, R162 to R164). -/

namespace Sys2Proof.Machine

theorem versionSupported_iff (cfg : Config) (v : Ver) :
    versionSupported cfg v = true ↔ v ∈ cfg.supportedVersions :=
  List.contains_iff_mem

theorem versionSupported_eq_false_iff (cfg : Config) (v : Ver) :
    versionSupported cfg v = false ↔ v ∉ cfg.supportedVersions := by
  rw [← versionSupported_iff, Bool.not_eq_true]

/-- An IDLE core runs the gates on the accepted word, whatever the instruction. -/
theorem exec_ready {s : State} (hs : Ready s) (i : Instr) :
    exec i s = .next (gates i.packet (handlerBody i) (accept i s)) := by
  rw [exec_eq, transact_ready _ _ _ hs]

/-- Settles O29: the version gate comes first. -/
theorem unsupportedVersionIsAnsweredBeforeAnyOtherCheck :
    Obligations.UnsupportedVersionIsAnsweredBeforeAnyOtherCheck := by
  intro s i hs unsupported
  refine replied_of_exec_eq_replyResult hs ?_
  rw [exec_ready hs, gates_unsupported]
  exact (versionSupported_eq_false_iff _ _).mpr unsupported

/-- Settles O30: the checksum gate emits without building a word. -/
theorem checksumMismatchEndsSilently : Obligations.ChecksumMismatchEndsSilently := by
  intro s i hs supported mismatch
  refine ⟨emit i.packet .crcError none (accept i s), ?_, rfl,
    (midTransaction_accept i s).endedSilently i.packet .crcError⟩
  rw [exec_ready hs,
    gates_crcError _ _ (accept i s) ((versionSupported_iff _ _).mpr supported) mismatch]

/-- The range table covers every ID, so the only Unknown IDs are the listed ones
(42_component_registry.md R146). -/
theorem lookup_eq_none_iff (cfg : Config) (c : CompId) :
    lookup cfg c = none ↔ c ∈ cfg.registry.unknown := by
  rw [lookup, categoryOf_eq_categoryByRange, ← List.contains_iff_mem]
  split
  · next listed => exact iff_of_true rfl listed
  · next unlisted => exact iff_of_false (Option.some_ne_none _) unlisted

/-- Settles O31: behind the first two gates the registry gate answers, and the decided registry
lists no Unknown ID. -/
theorem unknownComponentIsAnUnknownCommand : Obligations.UnknownComponentIsAnUnknownCommand := by
  refine ⟨?gate, ?decided⟩
  case gate =>
    intro s i hs supported verified unknown
    refine replied_of_exec_eq_replyResult hs ?_
    rw [exec_ready hs,
      gates_unknown _ _ (accept i s) ((versionSupported_iff _ _).mpr supported) verified unknown]
  case decided =>
    intro own c unknown
    exact List.not_mem_nil ((lookup_eq_none_iff _ c).mp unknown)

end Sys2Proof.Machine
end

section
/-! PROOFS. command_dispatcher, the handlers behind the gates: their own checks, their call, and the
reply to its answer (43_command_dispatcher.md R170 to R181). -/

namespace Sys2Proof.Machine

/-! ### The checks of a handler -/

/-- A handler whose own check fails replies before its call. -/
theorem exec_of_checks_fail {s : State} {i : Instr} {d : Descriptor} (hs : Ready s)
    (pass : GatesPass s.cfg i.packet d) (checks : checksPass i d = false) :
    exec i s = .next (replyResult i.packet (checkResult i) (accept i s)) := by
  rw [exec_ready hs, gates_pass _ _ (accept i s) d pass, handlerBody,
    if_neg (Bool.eq_false_iff.mp checks)]

/-- A handler whose own checks pass goes on to its call. -/
theorem exec_of_checks_pass {s : State} {i : Instr} {d : Descriptor} (hs : Ready s)
    (pass : GatesPass s.cfg i.packet d) (checks : checksPass i d = true) :
    exec i s = .next (resume i (accept i s)) := by
  rw [exec_ready hs, gates_pass _ _ (accept i s) d pass, handlerBody, if_pos checks]

theorem replied_of_checks_fail {s : State} {i : Instr} {d : Descriptor} (hs : Ready s)
    (pass : GatesPass s.cfg i.packet d) (checks : checksPass i d = false) :
    ∃ t, exec i s = .next t ∧ t.answers = s.answers ∧
      Replied s t i.packet (checkResult i) (resultWire s.cfg (checkResult i)) [] :=
  replied_of_exec_eq_replyResult hs (exec_of_checks_fail hs pass checks)

/-- A handler whose checks pass ends as it does once its call is answered. -/
theorem replied_of_resume_eq {s : State} {i : Instr} {d : Descriptor} {r : ResultCode} {v : Byte}
    {c : Call} {a : Answer} {rest : Answers} (hs : Ready s) (pass : GatesPass s.cfg i.packet d)
    (checks : checksPass i d = true)
    (hresume : resume i (accept i s) = replyWith i.packet r v (answered c a rest (accept i s))) :
    ∃ t, exec i s = .next t ∧ t.answers = rest ∧ Replied s t i.packet r v [⟨c, a⟩] :=
  replied_of_exec_eq_replyWith hs
    ((exec_of_checks_pass hs pass checks).trans (congrArg Host.Outcome.next hresume))

/-! ### The reply to the answer of a call -/

/-- The result code for the `ok` of the parameter store and the update sink
(43_command_dispatcher.md R175, R178). -/
def okResult : Bool → ResultCode
  | true => .done
  | false => .failure

section
variable (p : Packet) (s : State)

theorem resume_readDeviceId {v : Byte} {rest : List Byte}
    (live : s.answers.idDevice.live = v :: rest) :
    resume (.readDeviceId p) s = replyWith p .done v
      (answered .idDevice (.value v) { s.answers with idDevice := .of rest } s) := by
  rw [resume, callReadDeviceId, takeIdDevice_cons s v rest live]
  exact replyValue_eq_replyWith p v _

theorem resume_readFirmwareVersion {v : Byte} {rest : List Byte}
    (live : s.answers.idFirmware.live = v :: rest) :
    resume (.readFirmwareVersion p) s = replyWith p .done v
      (answered .idFirmware (.value v) { s.answers with idFirmware := .of rest } s) := by
  rw [resume, callReadFirmwareVersion, takeIdFirmware_cons s v rest live]
  exact replyValue_eq_replyWith p v _

theorem resume_readValue_ok {v : Byte} {rest : List (Byte × Bool)}
    (live : s.answers.get.live = (v, true) :: rest) :
    resume (.readValue p) s = replyWith p .done v
      (answered (.get p.comp) (.valueOk v true) { s.answers with get := .of rest } s) := by
  rw [resume, callReadValue, takeGet_cons p.comp s v true rest live]
  exact replyValue_eq_replyWith p v _

theorem resume_readValue_notOk {v : Byte} {rest : List (Byte × Bool)}
    (live : s.answers.get.live = (v, false) :: rest) :
    resume (.readValue p) s = replyWith p .failure (resultWire s.cfg .failure)
      (answered (.get p.comp) (.valueOk v false) { s.answers with get := .of rest } s) := by
  rw [resume, callReadValue, takeGet_cons p.comp s v false rest live]
  exact replyResult_eq_replyWith p .failure _

theorem resume_setValue {ok : Bool} {rest : List Bool} (live : s.answers.set.live = ok :: rest) :
    resume (.setValue p) s = replyWith p (okResult ok) (resultWire s.cfg (okResult ok))
      (answered (.set p.comp p.val) (.ok ok) { s.answers with set := .of rest } s) := by
  rw [resume, callSetValue, takeSet_cons p.comp p.val s ok rest live]
  cases ok with
  | true => exact replyResult_eq_replyWith p .done _
  | false => exact replyResult_eq_replyWith p .failure _

theorem resume_updateValue {ok : Bool} {rest : List Bool}
    (live : s.answers.push.live = ok :: rest) :
    resume (.updateValue p) s = replyWith p (okResult ok) (resultWire s.cfg (okResult ok))
      (answered (.push p.comp p.val) (.ok ok) { s.answers with push := .of rest } s) := by
  rw [resume, callUpdateValue, takePush_cons p.comp p.val s ok rest live]
  cases ok with
  | true => exact replyResult_eq_replyWith p .done _
  | false => exact replyResult_eq_replyWith p .failure _

theorem resume_identifyDevice_firmware {v : Byte} {rest : List Byte}
    (firmware : p.comp = s.cfg.idFirmwareVersion) (live : s.answers.idFirmware.live = v :: rest) :
    resume (.identifyDevice p) s = replyWith p .done v
      (answered .idFirmware (.value v) { s.answers with idFirmware := .of rest } s) := by
  rw [resume, callIdentifyDevice, if_pos firmware, takeIdFirmware_cons s v rest live]
  exact replyValue_eq_replyWith p v _

theorem resume_identifyDevice_other {v : Byte} {rest : List Byte}
    (other : p.comp ≠ s.cfg.idFirmwareVersion) (live : s.answers.idDevice.live = v :: rest) :
    resume (.identifyDevice p) s = replyWith p .done v
      (answered .idDevice (.value v) { s.answers with idDevice := .of rest } s) := by
  rw [resume, callIdentifyDevice, if_neg other, takeIdDevice_cons s v rest live]
  exact replyValue_eq_replyWith p v _

end

/-! ### The ReadValue handlers -/

theorem bne_wo_of_ne {d : Descriptor} (readable : d.access ≠ .wo) : (d.access != .wo) = true :=
  bne_iff_ne.mpr readable

theorem bne_wo_of_eq {d : Descriptor} (writeOnly : d.access = .wo) : (d.access != .wo) = false := by
  rw [writeOnly]
  rfl

/-- Settles O21: the write-only check, then the answer of `id_device`. -/
theorem readDeviceIdAnswersTheIdentityByte : Obligations.ReadDeviceIdAnswersTheIdentityByte := by
  intro s p d hs pass
  refine ⟨fun writeOnly => ?refused, fun v rest readable live => ?answered⟩
  case refused =>
    exact replied_of_checks_fail (i := .readDeviceId p) hs pass (bne_wo_of_eq writeOnly)
  case answered =>
    exact replied_of_resume_eq (i := .readDeviceId p) hs pass (bne_wo_of_ne readable)
      (resume_readDeviceId p _ live)

/-- Settles O22: the write-only check, then the answer of `id_firmware`. -/
theorem readFirmwareVersionAnswersTheVersionByte :
    Obligations.ReadFirmwareVersionAnswersTheVersionByte := by
  intro s p d hs pass
  refine ⟨fun writeOnly => ?refused, fun v rest readable live => ?answered⟩
  case refused =>
    exact replied_of_checks_fail (i := .readFirmwareVersion p) hs pass (bne_wo_of_eq writeOnly)
  case answered =>
    exact replied_of_resume_eq (i := .readFirmwareVersion p) hs pass (bne_wo_of_ne readable)
      (resume_readFirmwareVersion p _ live)

/-- Settles O23: the write-only check, then the answer of `get`, by its `ok`. -/
theorem readValueAnswersWhatTheStoreAnswers : Obligations.ReadValueAnswersWhatTheStoreAnswers := by
  intro s p d hs pass
  refine ⟨fun writeOnly => ?refused, fun v rest readable live => ?ok,
    fun v rest readable live => ?notOk⟩
  case refused =>
    exact replied_of_checks_fail (i := .readValue p) hs pass (bne_wo_of_eq writeOnly)
  case ok =>
    exact replied_of_resume_eq (i := .readValue p) hs pass (bne_wo_of_ne readable)
      (resume_readValue_ok p _ live)
  case notOk =>
    exact replied_of_resume_eq (i := .readValue p) hs pass (bne_wo_of_ne readable)
      (resume_readValue_notOk p _ live)

/-! ### SET_VALUE and UPDATE_VALUE -/

theorem checksPass_setValue_iff (p : Packet) (d : Descriptor) :
    checksPass (.setValue p) d = true ↔ d.access ≠ .ro ∧ inDomain d.domain p.val = true := by
  rw [checksPass, Bool.and_eq_true, bne_iff_ne]

theorem checksPass_setValue_eq_false_iff (p : Packet) (d : Descriptor) :
    checksPass (.setValue p) d = false ↔ d.access = .ro ∨ inDomain d.domain p.val = false := by
  rw [← Bool.not_eq_true, checksPass_setValue_iff, Decidable.not_and_iff_not_or_not, not_not,
    Bool.not_eq_true]

/-- A SET_VALUE whose checks pass replies as `set` answers. -/
theorem replied_setValue {s : State} {p : Packet} {d : Descriptor} {ok : Bool} {rest : List Bool}
    (hs : Ready s) (pass : GatesPass s.cfg p d) (writable : d.access ≠ .ro)
    (valid : inDomain d.domain p.val = true) (live : s.answers.set.live = ok :: rest) :
    ∃ t, exec (.setValue p) s = .next t ∧ t.answers = { s.answers with set := .of rest } ∧
      Replied s t p (okResult ok) (resultWire s.cfg (okResult ok))
        [⟨.set p.comp p.val, .ok ok⟩] :=
  replied_of_resume_eq (i := .setValue p) hs pass
    ((checksPass_setValue_iff p d).mpr ⟨writable, valid⟩) (resume_setValue p _ live)

/-- Settles O24: the access and domain checks, then the answer of `set`. -/
theorem setValueChecksThenCallsTheStore : Obligations.SetValueChecksThenCallsTheStore := by
  intro s p d hs pass
  refine ⟨fun invalid => ?invalid,
    fun rest writable valid live => replied_setValue hs pass writable valid live,
    fun rest writable valid live => replied_setValue hs pass writable valid live⟩
  case invalid =>
    exact replied_of_checks_fail (i := .setValue p) hs pass
      ((checksPass_setValue_eq_false_iff p d).mpr invalid)

/-- An UPDATE_VALUE replies as `push` answers, with no check on the descriptor. -/
theorem replied_updateValue {s : State} {p : Packet} {d : Descriptor} {ok : Bool} {rest : List Bool}
    (hs : Ready s) (pass : GatesPass s.cfg p d) (live : s.answers.push.live = ok :: rest) :
    ∃ t, exec (.updateValue p) s = .next t ∧ t.answers = { s.answers with push := .of rest } ∧
      Replied s t p (okResult ok) (resultWire s.cfg (okResult ok))
        [⟨.push p.comp p.val, .ok ok⟩] :=
  replied_of_resume_eq (i := .updateValue p) hs pass rfl (resume_updateValue p _ live)

/-- Settles O25: both answers of `push`. -/
theorem updateValuePushesToTheSink : Obligations.UpdateValuePushesToTheSink := by
  intro s p d hs pass
  exact ⟨fun rest live => replied_updateValue hs pass live,
    fun rest live => replied_updateValue hs pass live⟩

/-! ### RESPONSE_IN, IDENTIFY_DEVICE and UNASSIGNED_MESSAGE -/

/-- Settles O26: `deliver` completes at once, takes no answer from a port, and the emit has no
word. -/
theorem responseInDeliversAndSendsNothing : Obligations.ResponseInDeliversAndSendsNothing := by
  intro s p d hs pass
  have delivered :=
    (midTransaction_accept (.responseIn p) s).afterAnswer (.deliver p) .nothing s.answers
  exact ⟨_, exec_of_checks_pass (i := .responseIn p) hs pass rfl, rfl,
    delivered.endedSilently p .done⟩

/-- Settles O27: the ComponentID selects the identity call, and no check comes before it. -/
theorem identifyDeviceSelectsTheIdentityByte :
    Obligations.IdentifyDeviceSelectsTheIdentityByte := by
  intro s p d hs pass
  refine ⟨fun v rest firmware live => ?firmware, fun v rest other live => ?device⟩
  case firmware =>
    exact replied_of_resume_eq (i := .identifyDevice p) hs pass rfl
      (resume_identifyDevice_firmware p _ firmware live)
  case device =>
    exact replied_of_resume_eq (i := .identifyDevice p) hs pass rfl
      (resume_identifyDevice_other p _ other live)

/-- The decided map gives each of the four codes a type (30_encoding.md R76). -/
theorem msgTypeOf_decidedFor_ne_none (own : SysId) (m : MsgCode) :
    msgTypeOf (decidedFor own) m ≠ none := by
  unfold msgTypeOf
  split_ifs <;> exact Option.some_ne_none _

/-- Settles O28: the handler has no check and no call, and the decided map leaves no code without a
type. -/
theorem unassignedMessageIsAnUnknownCommand : Obligations.UnassignedMessageIsAnUnknownCommand := by
  refine ⟨fun s p d hs pass => ?_, msgTypeOf_decidedFor_ne_none⟩
  exact replied_of_exec_eq_replyResult (i := .unassignedMessage p) hs
    (exec_of_checks_pass (i := .unassignedMessage p) hs pass rfl)

end Sys2Proof.Machine
end

section
/-! PROOFS. response_encoder: the words of its two build operations (44_response_encoder.md R200,
R201). -/

namespace Sys2Proof.Machine

/-- The corner case of 44_response_encoder.md R201: on the wire a result response is the value
response whose value is the result's code. -/
theorem buildResult_eq_buildValue (p : Packet) (r : ResultCode) (s : State) :
    buildResult p r s = buildValue p.comp (resultWire s.cfg r) s := rfl

/-- Settles O20: BUILD_VALUE is the common body of the two build operations, whose word is a response
with the given ComponentID and value. -/
theorem buildValueCarriesTheValue : Obligations.BuildValueCarriesTheValue := by
  intro s c v hcfg
  exact ⟨isResponse_buildResponse hcfg c v, buildResponse_comp c v s, buildResponse_val c v s,
    buildValue_snd c v s⟩

/-- Settles O19: a result response is a value response, so O20 says what its word carries. -/
theorem buildResultCarriesTheResultCode : Obligations.BuildResultCarriesTheResultCode := by
  intro s p r hcfg
  rw [buildResult_eq_buildValue]
  exact buildValueCarriesTheValue s p.comp (resultWire s.cfg r) hcfg

end Sys2Proof.Machine
end

section
/-! PROOFS. Words and well-formed instructions correspond one to one, and masks read the fields of a
packet (30_encoding.md R70, R71, R82, R83; 40_packet_codec.md R102, R103). -/

namespace Sys2Proof

/-! ### Words and packets -/

/-- ENCODE undoes DECODE: the seven fields cover the word (40_packet_codec.md R103). -/
@[simp] theorem encodePacket_decodePacket (w : Word) : encodePacket (decodePacket w) = w := by
  simp only [← BitVec.toNat_inj, encodePacket_toNat, decodePacket, toNat_extractLsb'_eq_div_mod]
  omega

/-- Two words with the same fields are the same word. -/
theorem decodePacket_inj {v w : Word} : decodePacket v = decodePacket w ↔ v = w :=
  (Function.LeftInverse.injective encodePacket_decodePacket).eq_iff

/-! ### Packets and instructions -/

@[simp] theorem selectHandler_packet (cfg : Config) (p : Packet) :
    (selectHandler cfg p).packet = p := by
  unfold selectHandler
  split
  case h_1 => split_ifs <;> rfl
  all_goals rfl

/-- The selection answers an instruction that passes the checks it was selected by. -/
theorem selectHandler_wellFormed (cfg : Config) (p : Packet) :
    (selectHandler cfg p).wellFormed cfg = true := by
  unfold selectHandler
  split
  case h_1 type =>
    split_ifs with device firmware <;>
      simp_all [Instr.wellFormed, Instr.packet, Instr.msgType]
  all_goals
    next type => simp [Instr.wellFormed, Instr.packet, Instr.msgType, type]

/-- A well-formed instruction is the one its packet selects. -/
theorem selectHandler_of_wellFormed {cfg : Config} {i : Instr} (wf : i.wellFormed cfg = true) :
    selectHandler cfg i.packet = i := by
  obtain ⟨type, -⟩ := Laws.PacketCarried.of_wellFormed i cfg wf
  rw [Instr.wellFormed.eq_def, Bool.and_eq_true] at wf
  obtain ⟨-, ids⟩ := wf
  rw [selectHandler, type]
  cases i with
  | readDeviceId p => exact if_pos (eq_of_beq ids)
  | readFirmwareVersion p =>
    rw [Bool.and_eq_true, bne_iff_ne] at ids
    obtain ⟨firmware, notDevice⟩ := ids
    exact (if_neg notDevice).trans (if_pos (eq_of_beq firmware))
  | readValue p =>
    rw [Bool.and_eq_true, bne_iff_ne, bne_iff_ne] at ids
    obtain ⟨notDevice, notFirmware⟩ := ids
    exact (if_neg notDevice).trans (if_neg notFirmware)
  | setValue p => rfl
  | updateValue p => rfl
  | responseIn p => rfl
  | identifyDevice p => rfl
  | unassignedMessage p => rfl

@[simp] theorem decode_packet (cfg : Config) (w : Word) : (decode cfg w).packet = decodePacket w :=
  selectHandler_packet cfg _

theorem decode_wellFormed (cfg : Config) (w : Word) : (decode cfg w).wellFormed cfg = true :=
  selectHandler_wellFormed cfg _

@[simp] theorem encode_decode (cfg : Config) (w : Word) : encode (decode cfg w) = w := by
  rw [encode, decode_packet, encodePacket_decodePacket]

theorem decode_encodePacket_of_wellFormed {cfg : Config} {i : Instr}
    (wf : i.wellFormed cfg = true) : decode cfg (encodePacket i.packet) = i := by
  rw [decode, decodePacket_encodePacket, selectHandler_of_wellFormed wf]

/-! ### Masks -/

/-- The fieldwise AND of two packets. -/
def Packet.and (p q : Packet) : Packet :=
  { ver := p.ver &&& q.ver, sys := p.sys &&& q.sys, seq := p.seq &&& q.seq
    comp := p.comp &&& q.comp, msg := p.msg &&& q.msg, val := p.val &&& q.val
    chk := p.chk &&& q.chk }

/-- The fieldwise OR of two packets. -/
def Packet.or (p q : Packet) : Packet :=
  { ver := p.ver ||| q.ver, sys := p.sys ||| q.sys, seq := p.seq ||| q.seq
    comp := p.comp ||| q.comp, msg := p.msg ||| q.msg, val := p.val ||| q.val
    chk := p.chk ||| q.chk }

theorem decodePacket_and (v w : Word) :
    decodePacket (v &&& w) = (decodePacket v).and (decodePacket w) := by
  simp only [decodePacket, Packet.and, BitVec.extractLsb'_and]

theorem decodePacket_or (v w : Word) :
    decodePacket (v ||| w) = (decodePacket v).or (decodePacket w) := by
  simp only [decodePacket, Packet.or, BitVec.extractLsb'_or]

/-- The fields of the mask of a field: ones in that field alone. -/
def maskPacket : Field → Packet
  | .ver => ⟨7, 0, 0, 0, 0, 0, 0⟩
  | .sys => ⟨0, 3, 0, 0, 0, 0, 0⟩
  | .seq => ⟨0, 0, 31, 0, 0, 0, 0⟩
  | .comp => ⟨0, 0, 0, 255, 0, 0, 0⟩
  | .msg => ⟨0, 0, 0, 0, 3, 0, 0⟩
  | .val => ⟨0, 0, 0, 0, 0, 255, 0⟩
  | .chk => ⟨0, 0, 0, 0, 0, 0, 15⟩

theorem decodePacket_fieldMask (f : Field) : decodePacket (fieldMask f) = maskPacket f := by
  cases f <;> rfl

/-- A packet with every field but one cleared. -/
def onlyField (f : Field) (p : Packet) : Packet :=
  match f with
  | .ver => ⟨p.ver, 0, 0, 0, 0, 0, 0⟩
  | .sys => ⟨0, p.sys, 0, 0, 0, 0, 0⟩
  | .seq => ⟨0, 0, p.seq, 0, 0, 0, 0⟩
  | .comp => ⟨0, 0, 0, p.comp, 0, 0, 0⟩
  | .msg => ⟨0, 0, 0, 0, p.msg, 0, 0⟩
  | .val => ⟨0, 0, 0, 0, 0, p.val, 0⟩
  | .chk => ⟨0, 0, 0, 0, 0, 0, p.chk⟩

/-- A mask keeps its field and clears the others. -/
theorem and_maskPacket (f : Field) (p : Packet) : p.and (maskPacket f) = onlyField f p := by
  cases f <;> simp only [Packet.and, maskPacket, onlyField, Packet.mk.injEq, BitVec.and_zero,
    true_and, and_true, BitVec.ofNat_eq_ofNat] <;> exact BitVec.and_allOnes

/-- The field that a mask left stands alone at its position. -/
theorem encodePacket_onlyField_shifted (f : Field) (p : Packet) :
    encodePacket (onlyField f p) >>> fieldShift f = fieldOf f p := by
  rw [← BitVec.toNat_inj, BitVec.toNat_ushiftRight, Nat.shiftRight_eq_div_pow, encodePacket_toNat]
  cases f <;> simp [onlyField, fieldShift, fieldOf] <;> omega

theorem and_fieldMask (f : Field) (w : Word) :
    w &&& fieldMask f = encodePacket (onlyField f (decodePacket w)) := by
  rw [← decodePacket_inj, decodePacket_encodePacket, decodePacket_and, decodePacket_fieldMask,
    and_maskPacket]

theorem fieldByMask_eq_fieldOf (f : Field) (w : Word) :
    fieldByMask f w = fieldOf f (decodePacket w) := by
  rw [fieldByMask, and_fieldMask, encodePacket_onlyField_shifted]

/-! ### The byte image -/

/-- Concatenation of adjacent bit fields gives the field they make up. -/
theorem bytes_append (w : Word) :
    w.extractLsb' 24 8 ++ w.extractLsb' 16 8 ++ w.extractLsb' 8 8 ++ w.extractLsb' 0 8 = w := by
  simp only [← BitVec.toNat_inj, toNat_append_eq_mul_add, toNat_extractLsb'_eq_div_mod]
  omega

theorem wordOfBytes_wireBytes (order : ByteOrder) (w : Word) :
    wordOfBytes order (wireBytes order w) = .ok w := by
  cases order with
  | big => exact congrArg Except.ok (bytes_append w)
  | little => exact congrArg Except.ok (bytes_append w)

theorem wordOfBytes_of_short (order : ByteOrder) (bs : List Byte) (short : bs.length < 4) :
    wordOfBytes order bs = .error .incomplete := by
  match bs with
  | [] => rfl
  | [_] => rfl
  | [_, _] => rfl
  | [_, _, _] => rfl
  | _ :: _ :: _ :: _ :: _ => simp at short; omega

theorem wordOfBytes_of_long (order : ByteOrder) (bs : List Byte) (long : 4 < bs.length) :
    wordOfBytes order bs = .error .overlong := by
  match bs with
  | _ :: _ :: _ :: _ :: _ :: _ => rfl
  | [] | [_] | [_, _] | [_, _, _] | [_, _, _, _] => simp at long

/-! ### The opcode table -/

theorem decodePacket_rowPattern (m : MsgCode) :
    decodePacket (rowPattern m) = ⟨1, 0, 0, 0, m, 0, 0⟩ := by
  revert m
  decide

theorem decodePacket_rowComp (c : CompId) :
    decodePacket (rowComp c) = ⟨0, 0, 0, c, 0, 0, 0⟩ := by
  have shifted : (rowComp c).toNat = c.toNat * 2 ^ 14 := by
    rw [rowComp, BitVec.toNat_shiftLeft, Nat.shiftLeft_eq, BitVec.toNat_setWidth]
    omega
  simp only [decodePacket, Packet.mk.injEq, ← BitVec.toNat_inj, toNat_extractLsb'_eq_div_mod,
    shifted, BitVec.ofNat_eq_ofNat, BitVec.toNat_ofNat]
  omega

/-- A row without a ComponentID in its mask matches by version and MessageID code. -/
theorem matches_codeRow_iff (w : Word) (m : MsgCode) :
    w &&& 0xE0003000#32 = rowPattern m ↔ (decodePacket w).ver = 1#3 ∧ (decodePacket w).msg = m := by
  have maskFields : decodePacket 0xE0003000#32 = ⟨7, 0, 0, 0, 3, 0, 0⟩ := rfl
  have ver (v : Ver) : v &&& 7#3 = v := BitVec.and_allOnes
  have msg (c : MsgCode) : c &&& 3#2 = c := BitVec.and_allOnes
  rw [← decodePacket_inj, decodePacket_and, maskFields, decodePacket_rowPattern]
  simp only [Packet.and, Packet.mk.injEq, ver, msg, BitVec.ofNat_eq_ofNat, BitVec.and_zero,
    true_and, and_true]

/-- A row with a ComponentID in its mask matches by that too. -/
theorem matches_compRow_iff (w : Word) (m : MsgCode) (c : CompId) :
    w &&& 0xE03FF000#32 = rowPattern m ||| rowComp c ↔
      ((decodePacket w).ver = 1#3 ∧ (decodePacket w).msg = m) ∧ (decodePacket w).comp = c := by
  have maskFields : decodePacket 0xE03FF000#32 = ⟨7, 0, 0, 255, 3, 0, 0⟩ := rfl
  have ver (v : Ver) : v &&& 7#3 = v := BitVec.and_allOnes
  have msg (c : MsgCode) : c &&& 3#2 = c := BitVec.and_allOnes
  have comp (c : CompId) : c &&& 255#8 = c := BitVec.and_allOnes
  rw [← decodePacket_inj, decodePacket_and, decodePacket_or, maskFields, decodePacket_rowPattern,
    decodePacket_rowComp]
  simp only [Packet.and, Packet.or, Packet.mk.injEq, ver, msg, comp, BitVec.ofNat_eq_ofNat,
    BitVec.and_zero, BitVec.or_zero, BitVec.zero_or, true_and, and_true]
  tauto

/-- A row of the table matches a word. -/
def rowMatches (w : Word) (r : OpcodeRow) : Bool := w &&& r.mask == r.pattern

theorem rowMatches_codeRow {w : Word} (version : (decodePacket w).ver = 1#3) (name : String)
    (m : MsgCode) :
    rowMatches w ⟨name, rowPattern m, 0xE0003000#32⟩ = decide ((decodePacket w).msg = m) := by
  rw [Bool.eq_iff_iff, rowMatches, beq_iff_eq, matches_codeRow_iff, and_iff_right version,
    decide_eq_true_iff]

theorem rowMatches_compRow {w : Word} (version : (decodePacket w).ver = 1#3) (name : String)
    (m : MsgCode) (c : CompId) :
    rowMatches w ⟨name, rowPattern m ||| rowComp c, 0xE03FF000#32⟩ =
      decide ((decodePacket w).msg = m ∧ (decodePacket w).comp = c) := by
  rw [Bool.eq_iff_iff, rowMatches, beq_iff_eq, matches_compRow_iff, and_iff_right version,
    decide_eq_true_iff]

/-- The rows of another MessageID code do not match. -/
theorem find?_rowsOfCode_other (cfg : Config) {w : Word} {m : MsgCode}
    (version : (decodePacket w).ver = 1#3) (other : (decodePacket w).msg ≠ m) :
    (rowsOfCode cfg m).find? (rowMatches w) = none := by
  rw [List.find?_eq_none]
  unfold rowsOfCode
  split
  case h_1 => simp [rowMatches_codeRow version, rowMatches_compRow version, other]
  all_goals simp [rowMatches_codeRow version, other]

/-- Of the rows of a word's own MessageID code, the first that matches names the handler: the identity
rows stand before READ_VALUE as the tests of the selection do. -/
theorem find?_rowsOfCode_own (cfg : Config) {w : Word} (version : (decodePacket w).ver = 1#3) :
    ((rowsOfCode cfg (decodePacket w).msg).find? (rowMatches w)).map OpcodeRow.mnemonic =
      some (decode cfg w).mnemonic := by
  have code := rowMatches_codeRow version
  have comp := rowMatches_compRow version
  rw [decode, selectHandler, rowsOfCode]
  cases type : Machine.msgTypeOf cfg (decodePacket w).msg with
  | none => simp [code, Instr.mnemonic]
  | some t =>
    cases t with
    | readValue =>
      by_cases device : (decodePacket w).comp = cfg.idDeviceId
      · simp [comp, device, Instr.mnemonic]
      · by_cases firmware : (decodePacket w).comp = cfg.idFirmwareVersion
        · have notDevice : cfg.idFirmwareVersion ≠ cfg.idDeviceId := firmware ▸ device
          simp [comp, firmware, notDevice, Instr.mnemonic]
        · simp [comp, code, device, firmware, Instr.mnemonic]
    | setValue => simp [code, Instr.mnemonic]
    | updateValue => simp [code, Instr.mnemonic]
    | response => simp [code, Instr.mnemonic]
    | identifyDevice => simp [code, Instr.mnemonic]

theorem mem_msgCodes (m : MsgCode) : m ∈ Machine.msgCodes := by
  revert m
  decide

/-- A search that only one element of the list can satisfy finds what that element gives. -/
theorem findSome?_eq_of_unique {α β : Type} {f : α → Option β} {a : α} :
    ∀ {l : List α}, a ∈ l → (∀ x, a ≠ x → f x = none) → l.findSome? f = f a
  | [], mem, _ => absurd mem List.not_mem_nil
  | x :: xs, mem, others => by
    rw [List.findSome?_cons]
    by_cases same : a = x
    · subst same
      cases found : f a with
      | some b => rfl
      | none =>
        refine List.findSome?_eq_none_iff.mpr fun y _ => ?_
        by_cases again : a = y
        · rw [← again, found]
        · exact others y again
    · rw [others x same]
      exact findSome?_eq_of_unique ((List.mem_cons.mp mem).resolve_left same) others

/-- The search of the table comes down to the rows of the word's own MessageID code. -/
theorem tableRow_eq_find?_own (cfg : Config) {w : Word} (version : (decodePacket w).ver = 1#3) :
    tableRow cfg w = (rowsOfCode cfg (decodePacket w).msg).find? (rowMatches w) := by
  have byCode : tableRow cfg w =
      Machine.msgCodes.findSome? fun m => (rowsOfCode cfg m).find? (rowMatches w) :=
    List.find?_flatMap
  rw [byCode]
  exact findSome?_eq_of_unique (mem_msgCodes _) fun _ other =>
    find?_rowsOfCode_other cfg version other

end Sys2Proof

namespace Sys2Proof.Machine

/-- Settles O5: DECODE and ENCODE are inverse on packets, and the selection of a handler is inverse to
taking the packet of a well-formed instruction. -/
theorem instructionsAndWordsAreInBijection : Obligations.InstructionsAndWordsAreInBijection :=
  ⟨fun _ _ wf => decode_encodePacket_of_wellFormed wf,
    fun cfg w => ⟨decode_wellFormed cfg w, encode_decode cfg w⟩⟩

/-- Settles O6: only rows of the word's own MessageID code can match, and the first of them that does
is the decoded handler's. -/
theorem opcodeTableNamesTheDecodedInstruction :
    Obligations.OpcodeTableNamesTheDecodedInstruction := by
  intro cfg w version
  rw [tableRow_eq_find?_own cfg version, find?_rowsOfCode_own cfg version]

/-- Settles O2: a mask clears every field but its own, and the masks are seven numerals. -/
theorem fieldMasksReadDisjointFieldsThatCoverTheWord :
    Obligations.FieldMasksReadDisjointFieldsThatCoverTheWord := by
  refine ⟨fieldByMask_eq_fieldOf, fun f g different => ?disjoint, rfl⟩
  case disjoint =>
    revert different
    cases f <;> cases g <;> decide

/-- Settles O7: each word is a numeral, and the decided configuration a closed term. -/
theorem vectorWordsDecodeAsWritten : Obligations.VectorWordsDecodeAsWritten := by
  refine ⟨?_, ?_, ?_, ?_, ?_, ?_⟩ <;> decide

/-- Settles O8: four bytes are adjacent bit fields of the word, and a list of another length falls
under the patterns of the refusals. -/
theorem byteImageGivesTheWordBack : Obligations.ByteImageGivesTheWordBack := by
  refine ⟨wordOfBytes_wireBytes, fun w => ?bigEndian, fun order bs =>
    ⟨wordOfBytes_of_short order bs, wordOfBytes_of_long order bs⟩⟩
  case bigEndian =>
    have topByte : w.toNat / 2 ^ 24 % 2 ^ 8 = w.toNat / 2 ^ 24 := by omega
    simp only [wireBytes, List.map_cons, List.map_nil, toNat_extractLsb'_eq_div_mod, topByte, pow_zero,
      Nat.div_one]

end Sys2Proof.Machine
end

section
/-! PROOFS. checksum_validator: which errors NIBBLE_SUM detects and which it misses, from a signed sum
of the word's eight nibbles (41_checksum_validator.md R120, R121, R123). -/

namespace Sys2Proof.Machine

/-! ### The eight nibbles of a word, and an error in one of them -/

/-- Nibble `k` of a word, `k = 0` the CheckSum. -/
def wordNibble (w : Word) (k : Nat) : Chk := w.extractLsb' (4 * k) 4

/-- The word of the error bits `e` at nibble `k`. -/
def errorAt (e : BitVec 4) (k : Nat) : Word := e.setWidth 32 <<< (4 * k)

theorem nibble_coveredBits (w : Word) {k : Nat} (hk : k < 7) :
    nibble (coveredBits w) k = wordNibble w (k + 1) := by
  rw [← BitVec.toNat_inj, nibble_toNat, coveredBits, wordNibble, toNat_extractLsb'_eq_div_mod,
    toNat_extractLsb'_eq_div_mod]
  interval_cases k <;> omega

/-- An error at one nibble has no bit in another. -/
theorem wordNibble_errorAt (e : BitVec 4) {j : Nat} (hj : j < 8) (k : Nat) :
    wordNibble (errorAt e k) j = if j = k then e else 0#4 := by
  refine BitVec.eq_of_getLsbD_eq fun b hb => ?_
  rw [wordNibble, errorAt, BitVec.getLsbD_extractLsb', BitVec.getLsbD_shiftLeft,
    BitVec.getLsbD_setWidth]
  rcases Nat.lt_trichotomy j k with below | same | above
  · simp [below.ne, show 4 * j + b < 4 * k by omega]
  · subst same
    simp [hb, show 4 * j + b < 32 by omega, show b < 32 by omega]
  · simp [above.ne', BitVec.getLsbD_of_ge e (4 * j + b - 4 * k) (by omega)]

theorem wordNibble_xor (v w : Word) (k : Nat) :
    wordNibble (v ^^^ w) k = wordNibble v k ^^^ wordNibble w k :=
  BitVec.extractLsb'_xor

/-! ### The residue -/

/-- The CheckSum counts against the covered nibbles. -/
def nibbleWeight (k : Nat) : Chk := if k = 0 then -1 else 1

/-- The sum of the covered nibbles less the CheckSum, mod 16. -/
def residue (w : Word) : Chk := ∑ k ∈ Finset.range 8, nibbleWeight k * wordNibble w k

/-- A word verifies under NIBBLE_SUM exactly if its residue is 0 (41_checksum_validator.md R120,
R121). -/
theorem chkVerify_iff_residue {cfg : Config} (hcfg : cfg.checksum = .nibbleSum) (w : Word) :
    chkVerify cfg w = true ↔ residue w = 0 := by
  have chk : w.extractLsb' 0 4 = wordNibble w 0 := rfl
  have signedSum : residue w = nibbleSum (coveredBits w) - wordNibble w 0 := by
    simp only [residue, Finset.sum_range_succ, Finset.sum_range_zero, nibbleWeight, nibbleSum,
      nibble_coveredBits w (show 0 < 7 by decide), nibble_coveredBits w (show 1 < 7 by decide),
      nibble_coveredBits w (show 2 < 7 by decide), nibble_coveredBits w (show 3 < 7 by decide),
      nibble_coveredBits w (show 4 < 7 by decide), nibble_coveredBits w (show 5 < 7 by decide),
      nibble_coveredBits w (show 6 < 7 by decide)]
    norm_num
    ring
  rw [chkVerify_iff, checksum_of_nibbleSum hcfg, chk, signedSum, sub_eq_zero]

/-- An error in one nibble moves the residue by what it does to that nibble. -/
theorem residue_xor_errorAt (w : Word) (e : BitVec 4) {k : Nat} (hk : k < 8) :
    residue (w ^^^ errorAt e k) =
      residue w + nibbleWeight k * ((wordNibble w k ^^^ e) - wordNibble w k) := by
  have moved : ∀ j ∈ Finset.range 8, nibbleWeight j * wordNibble (w ^^^ errorAt e k) j -
      nibbleWeight j * wordNibble w j =
        if j = k then nibbleWeight k * ((wordNibble w k ^^^ e) - wordNibble w k) else 0 := by
    intro j hj
    rw [wordNibble_xor, wordNibble_errorAt e (Finset.mem_range.mp hj), ← mul_sub]
    split_ifs with same
    · rw [same]
    · simp
  rw [← sub_eq_iff_eq_add', residue, residue, ← Finset.sum_sub_distrib, Finset.sum_congr rfl moved,
    Finset.sum_ite_eq', if_pos (Finset.mem_range.mpr hk)]

/-! ### Errors that are detected -/

theorem eq_zero_of_nibbleWeight_mul {k : Nat} {d : Chk} (h : nibbleWeight k * d = 0) : d = 0 := by
  unfold nibbleWeight at h
  split_ifs at h
  · rwa [neg_one_mul, neg_eq_zero] at h
  · rwa [one_mul] at h

/-- No nonzero error inside one nibble keeps the residue. -/
theorem chkVerify_xor_errorAt {cfg : Config} (hcfg : cfg.checksum = .nibbleSum) {w : Word}
    (verifies : chkVerify cfg w = true) {e : BitVec 4} {k : Nat} (hk : k < 8) (error : e ≠ 0#4) :
    chkVerify cfg (w ^^^ errorAt e k) = false := by
  rw [← Bool.not_eq_true, chkVerify_iff_residue hcfg, residue_xor_errorAt w e hk,
    (chkVerify_iff_residue hcfg w).mp verifies, zero_add]
  intro unmoved
  have sameNibble : wordNibble w k ^^^ e = wordNibble w k :=
    sub_eq_zero.mp (eq_zero_of_nibbleWeight_mul unmoved)
  exact error ((BitVec.xor_right_inj _).mp (sameNibble.trans BitVec.xor_zero.symm))

/-- A flipped bit is an error in the nibble that holds it. -/
theorem oneBit_eq_errorAt {i k : Nat} (hi : i < 8) (hk : k < 4) :
    (1#32 <<< (4 * i + k) : Word) = errorAt (1#4 <<< k) i := by
  interval_cases i <;> interval_cases k <;> rfl

/-- Settles O11: a one-bit error is an error in one nibble, and that always moves the residue. -/
theorem nibbleSumDetectsSingleNibbleErrors : Obligations.NibbleSumDetectsSingleNibbleErrors := by
  intro cfg w hcfg verifies
  refine ⟨fun k hk => ?oneBit, fun k e hk error => chkVerify_xor_errorAt hcfg verifies hk error⟩
  case oneBit =>
    have position : 4 * (k / 4) + k % 4 = k := Nat.div_add_mod k 4
    have low : k % 4 < 4 := Nat.mod_lt k (by decide)
    have nonzero : (1#4 <<< (k % 4) : BitVec 4) ≠ 0#4 := by
      interval_cases k % 4 <;> decide
    rw [← position, oneBit_eq_errorAt (by omega) low]
    exact chkVerify_xor_errorAt hcfg verifies (by omega) nonzero

/-! ### Errors that cancel -/

/-- Two errors in covered nibbles that keep the sum of the two are missed. -/
theorem chkVerify_xor_of_sum_kept {cfg : Config} (hcfg : cfg.checksum = .nibbleSum) {w : Word}
    (verifies : chkVerify cfg w = true) {i j : Nat} (hi : 1 ≤ i) (hij : i < j) (hj : j < 8)
    {e f : BitVec 4}
    (kept : (wordNibble w i ^^^ e) + (wordNibble w j ^^^ f) = wordNibble w i + wordNibble w j) :
    chkVerify cfg (w ^^^ errorAt e i ^^^ errorAt f j) = true := by
  have untouched : wordNibble (w ^^^ errorAt e i) j = wordNibble w j := by
    rw [wordNibble_xor, wordNibble_errorAt e hj, if_neg hij.ne', BitVec.xor_zero]
  have covered_i : nibbleWeight i = 1 := if_neg (by omega)
  have covered_j : nibbleWeight j = 1 := if_neg (by omega)
  rw [chkVerify_iff_residue hcfg, residue_xor_errorAt _ f hj, residue_xor_errorAt w e (by omega),
    (chkVerify_iff_residue hcfg w).mp verifies, untouched, covered_i, covered_j]
  linear_combination kept

/-- A flipped bit adds its value where it was 0 and takes it away where it was 1. -/
theorem xor_oneBit (a : BitVec 4) {k : Nat} (hk : k < 4) :
    a ^^^ (1#4 <<< k) = if a.getLsbD k then a - 1#4 <<< k else a + 1#4 <<< k := by
  interval_cases k <;> revert a <;> decide

/-- Bit 3 has value 8, which is its own negative mod 16. -/
theorem xor_bitThree (a : BitVec 4) : a ^^^ (1#4 <<< 3) = a + 1#4 <<< 3 := by
  revert a
  decide

/-- The same bit of two nibbles, flipped in opposite directions or with value 8, keeps their sum. -/
theorem sum_xor_oneBit {a b : BitVec 4} {k : Nat} (hk : k < 4)
    (cancels : k = 3 ∨ a.getLsbD k ≠ b.getLsbD k) :
    (a ^^^ (1#4 <<< k)) + (b ^^^ (1#4 <<< k)) = a + b := by
  rcases cancels with rfl | opposite
  · have twice : (1#4 <<< 3 : BitVec 4) + 1#4 <<< 3 = 0 := by decide
    rw [xor_bitThree, xor_bitThree]
    linear_combination twice
  · rw [xor_oneBit a hk, xor_oneBit b hk]
    cases ha : a.getLsbD k <;> cases hb : b.getLsbD k
    case false.false => exact absurd (ha.trans hb.symm) opposite
    case true.true => exact absurd (ha.trans hb.symm) opposite
    all_goals simp

theorem getLsbD_wordNibble (w : Word) (i : Nat) {k : Nat} (hk : k < 4) :
    (wordNibble w i).getLsbD k = w.getLsbD (4 * i + k) := by
  rw [wordNibble, BitVec.getLsbD_extractLsb', decide_eq_true hk, Bool.true_and]

/-- Errors at two nibbles share no bit, so putting them side by side is applying both. -/
theorem errorAt_or_eq_xor (e f : BitVec 4) {i j : Nat} (hij : i < j) :
    errorAt e i ||| errorAt f j = errorAt e i ^^^ errorAt f j := by
  refine BitVec.eq_of_getLsbD_eq fun b _ => ?_
  rw [BitVec.getLsbD_or, BitVec.getLsbD_xor, errorAt, errorAt, BitVec.getLsbD_shiftLeft,
    BitVec.getLsbD_shiftLeft]
  by_cases below : b < 4 * j
  · simp [below]
  · have high : ((e.setWidth 32).getLsbD (b - 4 * i)) = false := by
      rw [BitVec.getLsbD_setWidth, BitVec.getLsbD_of_ge e _ (by omega), Bool.and_false]
    simp [high]

/-- Settles O12: both patterns keep the sum of the two nibbles they touch. -/
theorem nibbleSumMissesCancellingErrors : Obligations.NibbleSumMissesCancellingErrors := by
  intro cfg w hcfg verifies
  refine ⟨fun i j k hi hij hj hk cancels => ?twoBits, fun i j hi hij hj => ?swapped⟩
  case twoBits =>
    rw [← getLsbD_wordNibble w i hk, ← getLsbD_wordNibble w j hk] at cancels
    rw [oneBit_eq_errorAt (by omega) hk, oneBit_eq_errorAt hj hk]
    exact chkVerify_xor_of_sum_kept hcfg verifies hi hij hj (sum_xor_oneBit hk cancels)
  case swapped =>
    have exchanged : (wordNibble w i ^^^ (wordNibble w i ^^^ wordNibble w j)) +
        (wordNibble w j ^^^ (wordNibble w i ^^^ wordNibble w j)) = wordNibble w i + wordNibble w j := by
      rw [← BitVec.xor_assoc, BitVec.xor_self, BitVec.zero_xor, BitVec.xor_comm (wordNibble w j),
        BitVec.xor_assoc, BitVec.xor_self, BitVec.xor_zero, add_comm]
    have missed := chkVerify_xor_of_sum_kept hcfg verifies hi hij hj exchanged
    rwa [BitVec.xor_assoc, ← errorAt_or_eq_xor _ _ hij] at missed

end Sys2Proof.Machine
end

section
/-! PROOFS. component_registry and the conditions on a configuration: what LOOKUP answers, and what each
check accepts (42_component_registry.md R140 to R146, 70_reset_and_hazards.md R253). -/

namespace Sys2Proof.Machine

/-! ### LOOKUP -/

/-- What LOOKUP answers for a known ID (42_component_registry.md R143 to R145). -/
theorem lookup_of_known {cfg : Config} {c : CompId} (known : c ∉ cfg.registry.unknown) :
    lookup cfg c = some
      { category := categoryByRange c
        name := nameOf cfg c
        access := (cfg.registry.access.lookup c).getD (defaultAccess (categoryByRange c))
        domain := (cfg.registry.domain.lookup c).getD fullDomain } := by
  have unlisted : cfg.registry.unknown.contains c = false := by
    rw [← Bool.not_eq_true, List.contains_iff_mem]
    exact known
  simp only [lookup, unlisted, categoryOf_eq_categoryByRange, Bool.false_eq_true, if_false]

/-- The read-only categories are the two ranges from `0xE0` on (42_component_registry.md R144). -/
theorem defaultAccess_categoryByRange (c : CompId) :
    defaultAccess (categoryByRange c) = if 0xE0 ≤ c.toNat then .ro else .rw := by
  unfold categoryByRange
  split_ifs <;> simp only [defaultAccess, reduceCtorEq] <;> omega

theorem inDomain_fullDomain (v : Byte) : inDomain fullDomain v = true := by
  have bounded : v.toNat ≤ 255 := Nat.le_of_lt_succ v.isLt
  simp [inDomain, fullDomain, BitVec.le_def, bounded]

theorem nameOf_decidedFor (own : SysId) (c : CompId) :
    nameOf (decidedFor own) c =
      (if c.toNat = 0x20 then .compThreshold
       else if c.toNat = 0xE0 then .meterInputLevel
       else if c.toNat = 0xF0 then .deviceId
       else if c.toNat = 0xF1 then .firmwareVersion else .generic) := by
  simp only [nameOf, decidedFor, ← BitVec.toNat_inj, BitVec.toNat_ofNat, Nat.reducePow, Nat.reduceMod]

/-- Settles O14: the decided registry lists no departure, so every ID is known, with the defaults. -/
theorem decidedRegistryKnowsEveryId : Obligations.DecidedRegistryKnowsEveryId := by
  intro own c
  have known : c ∉ (decidedFor own).registry.unknown := List.not_mem_nil
  exact ⟨_, lookup_of_known known, categoryOf_eq_categoryByRange c, defaultAccess_categoryByRange c,
    inDomain_fullDomain, nameOf_decidedFor own c⟩

/-! ### The conditions of R253 -/

theorem nodup_msgCodes : msgCodes.Nodup := by decide

/-- Item 1: the types of the four codes hold Response once exactly if one code alone maps to it. -/
theorem oneResponseCode_iff (cfg : Config) :
    oneResponseCode cfg = true ↔
      ∃ m, msgTypeOf cfg m = some .response ∧
        ∀ m', msgTypeOf cfg m' = some .response → m' = m := by
  have counted : (mappedTypes cfg).count .response =
      (msgCodes.filter fun m => msgTypeOf cfg m == some .response).length := by
    rw [mappedTypes, List.count_filterMap, List.countP_eq_length_filter]
  have single (m : MsgCode) :
      (msgCodes.filter fun m => msgTypeOf cfg m == some .response) = [m] ↔
        ∀ m', msgTypeOf cfg m' = some .response ↔ m' = m := by
    rw [← List.perm_singleton, List.perm_ext_iff_of_nodup (nodup_msgCodes.filter _)
      (List.nodup_singleton m)]
    simp only [List.mem_filter, mem_msgCodes, true_and, beq_iff_eq, List.mem_singleton]
  rw [oneResponseCode, beq_iff_eq, counted, List.length_eq_one_iff]
  refine exists_congr fun m => (single m).trans ⟨fun all => ?_, fun ⟨own, unique⟩ m' => ?_⟩
  · exact ⟨(all m).mpr rfl, fun m' => (all m').mp⟩
  · exact ⟨unique m', fun same => same ▸ own⟩

/-- Item 2: the types of the four codes are distinct exactly if the map is injective where defined. -/
theorem typesDistinct_iff (cfg : Config) :
    typesDistinct cfg = true ↔
      ∀ (m m' : MsgCode) (t : MsgType),
        msgTypeOf cfg m = some t → msgTypeOf cfg m' = some t → m = m' := by
  rw [typesDistinct, decide_eq_true_iff, mappedTypes, List.Nodup, List.pairwise_filterMap]
  constructor
  case mp =>
    intro distinct m m' t maps maps'
    have symmetric : Std.Symm fun m m' : MsgCode => ∀ t, msgTypeOf cfg m = some t →
        ∀ t', msgTypeOf cfg m' = some t' → t ≠ t' :=
      ⟨fun _ _ apart t maps t' maps' => (apart t' maps' t maps).symm⟩
    by_contra different
    exact distinct.forall (mem_msgCodes m) (mem_msgCodes m') different t maps t maps' rfl
  case mpr =>
    intro injective
    refine nodup_msgCodes.pairwise_of_forall_ne fun m _ m' _ different t maps t' maps' same => ?_
    exact different (injective m m' t maps (same ▸ maps'))

theorem mem_meterIds_iff (c : CompId) : c ∈ meterIds ↔ 0xE0 ≤ c.toNat ∧ c.toNat ≤ 0xEF := by
  simp only [meterIds, List.mem_map, List.mem_range, ← BitVec.toNat_inj, BitVec.toNat_add,
    BitVec.toNat_ofNat]
  constructor
  · rintro ⟨k, hk, value⟩
    omega
  · rintro ⟨low, high⟩
    exact ⟨c.toNat - 0xE0, by omega, by omega⟩

/-- Item 3: every known meter is read-only. -/
theorem metersReadOnly_iff (cfg : Config) :
    metersReadOnly cfg = true ↔
      ∀ (c : CompId) (d : Descriptor), 0xE0 ≤ c.toNat → c.toNat ≤ 0xEF →
        lookup cfg c = some d → d.access = .ro := by
  rw [metersReadOnly, List.all_eq_true]
  refine forall_congr' fun c => ?_
  rw [mem_meterIds_iff]
  cases lookup cfg c with
  | none => simp
  | some d => simp [beq_iff_eq, and_imp]

/-- Item 4: each enumerated name lies in the range of its category. -/
theorem namesInRange_iff (cfg : Config) :
    namesInRange cfg = true ↔
      categoryOf cfg.idCompThreshold = some .compressor ∧
      categoryOf cfg.idMeterInputLevel = some .metersStatus ∧
      categoryOf cfg.idDeviceId = some .serviceIdentification ∧
      categoryOf cfg.idFirmwareVersion = some .serviceIdentification := by
  simp only [namesInRange, Bool.and_eq_true, beq_iff_eq, and_assoc]

/-- Item 5: the two identity IDs differ. -/
theorem identitiesDistinct_iff (cfg : Config) :
    identitiesDistinct cfg = true ↔ cfg.idDeviceId ≠ cfg.idFirmwareVersion :=
  bne_iff_ne

/-- A configuration is accepted exactly if each of the five checks accepts it. -/
theorem configProblem_eq_none_iff (cfg : Config) :
    configProblem cfg = none ↔
      oneResponseCode cfg = true ∧ typesDistinct cfg = true ∧ metersReadOnly cfg = true ∧
        namesInRange cfg = true ∧ identitiesDistinct cfg = true := by
  unfold configProblem
  split_ifs <;> simp_all

/-! ### Refusals -/

theorem exec_refused {s : State} {e : ConfigProblem} (problem : configProblem s.cfg = some e)
    (i : Instr) : exec i s = .refused (.configRefused e) := by
  rw [exec_eq, transact_refused _ _ _ e problem]

theorem step_refused {s : State} {e : ConfigProblem} (problem : configProblem s.cfg = some e)
    (noRequest : s.control = none) : step s = .refused (.configRefused e) := by
  simp only [step, noRequest, problem]

theorem step_of_control {s : State} {c : Control} (request : s.control = some c) :
    step s = applyControl c (clearOutputs s) := by
  simp only [step, request]

/-- Settles O16: each check of the configuration is one item of the rule, the first that fails is the
refusal of `step` and `exec`, and another configuration is no request that a run can serve. -/
theorem exactlyTheStatedConfigurationsAreRefused :
    Obligations.ExactlyTheStatedConfigurationsAreRefused := by
  refine ⟨fun cfg => ?accepted, fun s e problem => ⟨step_refused problem, exec_refused problem⟩,
    fun s cfg request different => ?changed⟩
  case accepted =>
    rw [configProblem_eq_none_iff, oneResponseCode_iff, typesDistinct_iff, metersReadOnly_iff,
      namesInRange_iff, identitiesDistinct_iff]
  case changed =>
    rw [step_of_control request]
    exact if_neg different

/-! ### Meters -/

/-- Settles O15: item 3 of R253 makes the ID read-only, and the read-only check comes before the
call. -/
theorem metersAreReadOnlyInEveryAcceptedConfiguration :
    Obligations.MetersAreReadOnlyInEveryAcceptedConfiguration := by
  intro s p d hs pass low high
  obtain ⟨-, -, meters, -, -⟩ := (configProblem_eq_none_iff s.cfg).mp hs.1
  have ⟨_, _, known⟩ := pass
  have readOnly : d.access = .ro := (metersReadOnly_iff s.cfg).mp meters p.comp d low high known
  exact ⟨readOnly, replied_of_checks_fail (i := .setValue p) hs pass
    ((checksPass_setValue_eq_false_iff p d).mpr (.inl readOnly))⟩

end Sys2Proof.Machine
end

section
/-! PROOFS. Words of this node and of packet texts, and result codes on bus and wire
(30_encoding.md R79, R85; 44_response_encoder.md R202 to R204). -/

namespace Sys2Proof.Machine

/-- Settles O18: FINISH computes the code over bits it does not set. -/
theorem finishedWordsVerify : Obligations.FinishedWordsVerify := by
  intro cfg f
  exact ⟨chkVerify_finish cfg f, by rw [decodePacket_finish]⟩

/-- Settles O17: NEXT_SEQ is one write to the own entry of the counter file. -/
theorem nextSeqUsesTheCounterThenAdvancesIt : Obligations.NextSeqUsesTheCounterThenAdvancesIt := by
  intro s
  refine ⟨nextSeq_fst s, ?own, fun j other => ?others, rfl⟩
  case own => rw [nextSeq_seq, seqGet_seqSet_self, BitVec.toNat_add]; rfl
  case others => rw [nextSeq_seq, seqGet_seqSet_other _ _ _ _ other]

theorem resultIndex_lt_six (r : ResultCode) : (resultIndex r).toNat < 6 := by
  cases r <;> decide

theorem resultIndex_injective {r r' : ResultCode} (same : resultIndex r = resultIndex r') :
    r = r' := by
  revert same
  cases r <;> cases r' <;> decide

/-- The decided wire values count the results in the order of the bus (92_eei_decisions.md D5). -/
theorem resultWire_decidedFor (own : SysId) (r : ResultCode) :
    (resultWire (decidedFor own) r).toNat = (resultIndex r).toNat := by
  cases r <;> rfl

/-- Settles O49: six codes with six indices, which the decided wire values repeat. -/
theorem resultCodesOnBusAndWire : Obligations.ResultCodesOnBusAndWire :=
  ⟨resultIndex_lt_six, fun _ _ => resultIndex_injective, resultWire_decidedFor,
    fun _ _ presented => congrArg (Option.map resultIndex) presented⟩

/-- The packet of a text whose type has the code `m` and whose component is the number `c`. -/
def textPacket (cfg : Config) (t : PacketText) (m : MsgCode) (c : Nat) : Packet :=
  truncPacket { ver := t.ver, sys := textSys cfg t.sys, seq := t.seq, comp := c, msg := m.toNat
                val := t.val.getD 0, chk := t.chk.getD 0 }

/-- Everything a packet text can stand for: its packet as written, or finished where `chk` is
omitted (30_encoding.md R85). -/
theorem assemble_cases {cfg : Config} {t : PacketText} {w : Word} (text : assemble cfg t = some w) :
    ∃ m c, codeOf cfg (textMsgType t.type) = some m ∧ textComp cfg t.comp = some c ∧
      ((∃ k, t.chk = some k ∧ w = encodePacket (textPacket cfg t m c)) ∨
       (t.chk = none ∧ w = finish cfg (textPacket cfg t m c))) := by
  unfold assemble at text
  split at text
  case h_1 m c code comp =>
    refine ⟨m, c, code, comp, ?_⟩
    split at text
    case h_1 k given => exact .inl ⟨k, given, (Option.some.inj text).symm⟩
    case h_2 omitted => exact .inr ⟨omitted, (Option.some.inj text).symm⟩
  case h_2 => cases text

/-- The fields of a text's word, but for the checksum, are those of its packet. -/
theorem decodePacket_assemble {cfg : Config} {t : PacketText} {w : Word}
    (text : assemble cfg t = some w) :
    ∃ m c k, codeOf cfg (textMsgType t.type) = some m ∧ textComp cfg t.comp = some c ∧
      decodePacket w = { textPacket cfg t m c with chk := k } ∧
      (t.chk = none → chkVerify cfg w = true) ∧
      (∀ n, t.chk = some n → k = BitVec.ofNat 4 n) := by
  obtain ⟨m, c, code, comp, ⟨n, given, rfl⟩ | ⟨omitted, rfl⟩⟩ := assemble_cases text
  · refine ⟨m, c, _, code, comp, decodePacket_encodePacket _, by simp [given], fun n' given' => ?_⟩
    exact congrArg (fun chk : Option Nat => BitVec.ofNat 4 (chk.getD 0)) given'
  · exact ⟨m, c, _, code, comp, decodePacket_finish _ _, fun _ => chkVerify_finish _ _,
      by simp [omitted]⟩

/-- Settles O50: the word carries the truncated packet of the text, whose code maps back to its
type. -/
theorem packetTextGivesItsWord : Obligations.PacketTextGivesItsWord := by
  intro cfg t w text
  obtain ⟨m, c, k, code, comp, fields, verifies, given⟩ := decodePacket_assemble text
  have msg : (textPacket cfg t m c).msg = m := BitVec.ofNat_toNat ..
  rw [fields]
  refine ⟨verifies, fun n chk => ?chk, ?type, BitVec.toNat_ofNat _ _, BitVec.toNat_ofNat _ _,
    BitVec.toNat_ofNat _ _, fun c' comp' => ?comp, BitVec.toNat_ofNat _ _⟩
  case chk => rw [given n chk, BitVec.toNat_ofNat]
  case type => rw [msg]; exact msgTypeOf_of_codeOf code
  case comp =>
    rw [← Option.some.inj (comp.symm.trans comp')]
    exact BitVec.toNat_ofNat _ _

end Sys2Proof.Machine
end

section
/-! PROOFS. command_dispatcher, the whole transaction: how it ends is a function of the configuration,
the live answers and the instruction, and all it does to the state follows from that ending
(43_command_dispatcher.md R160, R161, R183, R184). -/

namespace Sys2Proof.Machine

/-! ### Endings -/

/-- How a transaction goes on from the acceptance of its word or from its call: it waits, or it ends
after the call `made`, if any, with a response that carries `v` or with no word. -/
inductive Ending where
  | waits
  | replies (made : Option CallRecord) (r : ResultCode) (v : Byte)
  | silent (made : Option CallRecord) (r : ResultCode)

/-- The call that an ending completes. -/
def Ending.made : Ending → Option CallRecord
  | .waits => none
  | .replies made _ _ => made
  | .silent made _ => made

/-- The ports once the answer to the call is taken. -/
def takenBy (made : Option CallRecord) (a : Answers) : Answers :=
  match made with
  | none => a
  | some m => withoutNext a m.call

/-- The state once the call is completed. -/
def afterCall (made : Option CallRecord) (s : State) : State :=
  match made with
  | none => s
  | some m => answered m.call m.answer (withoutNext s.answers m.call) s

/-- What an ending of the transaction of packet `p` does to the state. -/
def Ending.apply (p : Packet) (e : Ending) (s : State) : State :=
  match e with
  | .waits => s
  | .replies made r v => replyWith p r v (afterCall made s)
  | .silent made r => emit p r none (afterCall made s)

@[simp] theorem Ending.apply_replies_some (p : Packet) (m : CallRecord) (r : ResultCode) (v : Byte)
    (s : State) : (Ending.replies (some m) r v).apply p s =
      replyWith p r v (answered m.call m.answer (withoutNext s.answers m.call) s) := rfl

/-! ### The ending of a handler that goes on to its call -/

/-- The first live answer decides, and with none the transaction waits. -/
def onFirst {α : Type} (live : List α) (ending : α → Ending) : Ending :=
  match live with
  | [] => .waits
  | a :: _ => ending a

@[simp] theorem onFirst_nil {α : Type} (ending : α → Ending) : onFirst [] ending = .waits := rfl

@[simp] theorem onFirst_cons {α : Type} (a : α) (rest : List α) (ending : α → Ending) :
    onFirst (a :: rest) ending = ending a := rfl

/-- The identity byte is the value of the response (43_command_dispatcher.md R171, R172, R180). -/
def identityEnding (c : Call) (v : Byte) : Ending := .replies (some ⟨c, .value v⟩) .done v

/-- The value of the parameter, or FAILURE (43_command_dispatcher.md R170). -/
def readEnding (cfg : Config) (comp : CompId) (answer : Byte × Bool) : Ending :=
  match answer with
  | (v, true) => .replies (some ⟨.get comp, .valueOk v true⟩) .done v
  | (v, false) =>
    .replies (some ⟨.get comp, .valueOk v false⟩) .failure (resultWire cfg .failure)

/-- DONE or FAILURE by the answer (43_command_dispatcher.md R175, R178). -/
def writeEnding (cfg : Config) (c : Call) (ok : Bool) : Ending :=
  .replies (some ⟨c, .ok ok⟩) (okResult ok) (resultWire cfg (okResult ok))

/-- How a handler whose checks have passed goes on. -/
def callEnding (cfg : Config) (a : Answers) : Instr → Ending
  | .readDeviceId _ => onFirst a.idDevice.live (identityEnding .idDevice)
  | .readFirmwareVersion _ => onFirst a.idFirmware.live (identityEnding .idFirmware)
  | .readValue p => onFirst a.get.live (readEnding cfg p.comp)
  | .setValue p => onFirst a.set.live (writeEnding cfg (.set p.comp p.val))
  | .updateValue p => onFirst a.push.live (writeEnding cfg (.push p.comp p.val))
  | .responseIn p => .silent (some ⟨.deliver p, .nothing⟩) .done
  | .identifyDevice p =>
    if p.comp = cfg.idFirmwareVersion then onFirst a.idFirmware.live (identityEnding .idFirmware)
    else onFirst a.idDevice.live (identityEnding .idDevice)
  | .unassignedMessage _ =>
    .replies none .unknownCommand (resultWire cfg .unknownCommand)

theorem onFirst_eq_waits_iff {α : Type} {live : List α} {ending : α → Ending}
    (ends : ∀ a, ending a ≠ .waits) : onFirst live ending = .waits ↔ live.isEmpty = true := by
  cases live with
  | nil => exact iff_of_true rfl rfl
  | cons a rest => exact iff_of_false (ends a) Bool.false_ne_true

theorem identityEnding_ne_waits (c : Call) (v : Byte) : identityEnding c v ≠ .waits := nofun

theorem readEnding_ne_waits (cfg : Config) (comp : CompId) (answer : Byte × Bool) :
    readEnding cfg comp answer ≠ .waits := by
  obtain ⟨v, ok⟩ := answer
  cases ok <;> nofun

theorem writeEnding_ne_waits (cfg : Config) (c : Call) (ok : Bool) :
    writeEnding cfg c ok ≠ .waits := nofun

/-- A handler waits exactly while its call has no answer (70_reset_and_hazards.md R258). -/
theorem callEnding_eq_waits_iff (cfg : Config) (a : Answers) (i : Instr) :
    callEnding cfg a i = .waits ↔
      ∃ c, handlerCall cfg i = some c ∧ answerReady a c = false := by
  cases i with
  | readDeviceId p =>
    simp [callEnding, handlerCall, answerReady, onFirst_eq_waits_iff (identityEnding_ne_waits _)]
  | readFirmwareVersion p =>
    simp [callEnding, handlerCall, answerReady, onFirst_eq_waits_iff (identityEnding_ne_waits _)]
  | readValue p =>
    simp [callEnding, handlerCall, answerReady, onFirst_eq_waits_iff (readEnding_ne_waits _ _)]
  | setValue p =>
    simp [callEnding, handlerCall, answerReady, onFirst_eq_waits_iff (writeEnding_ne_waits _ _)]
  | updateValue p =>
    simp [callEnding, handlerCall, answerReady, onFirst_eq_waits_iff (writeEnding_ne_waits _ _)]
  | responseIn p => simp [callEnding, handlerCall]
  | identifyDevice p =>
    by_cases firmware : p.comp = cfg.idFirmwareVersion <;>
      simp [callEnding, handlerCall, answerReady, firmware,
        onFirst_eq_waits_iff (identityEnding_ne_waits _)]
  | unassignedMessage p => simp [callEnding, handlerCall]

/-- A handler that goes on from its call does what its ending says. -/
theorem resume_eq_callEnding (i : Instr) (s : State) :
    resume i s = (callEnding s.cfg s.answers i).apply i.packet s := by
  by_cases waits : callEnding s.cfg s.answers i = .waits
  · obtain ⟨c, call, unanswered⟩ := (callEnding_eq_waits_iff _ _ _).mp waits
    rw [waits, resume_waits i s c call unanswered]
    rfl
  cases i with
  | readDeviceId p =>
    cases live : s.answers.idDevice.live with
    | nil => simp [callEnding, live] at waits
    | cons v rest =>
      simp [resume_readDeviceId p s live, callEnding, live, identityEnding, withoutNext,
        Instr.packet]
  | readFirmwareVersion p =>
    cases live : s.answers.idFirmware.live with
    | nil => simp [callEnding, live] at waits
    | cons v rest =>
      simp [resume_readFirmwareVersion p s live, callEnding, live, identityEnding, withoutNext,
        Instr.packet]
  | readValue p =>
    cases live : s.answers.get.live with
    | nil => simp [callEnding, live] at waits
    | cons answer rest =>
      obtain ⟨v, ok⟩ := answer
      cases ok with
      | true =>
        simp [resume_readValue_ok p s live, callEnding, live, readEnding, withoutNext, Instr.packet]
      | false =>
        simp [resume_readValue_notOk p s live, callEnding, live, readEnding, withoutNext,
          Instr.packet]
  | setValue p =>
    cases live : s.answers.set.live with
    | nil => simp [callEnding, live] at waits
    | cons ok rest =>
      simp [resume_setValue p s live, callEnding, live, writeEnding, withoutNext, Instr.packet]
  | updateValue p =>
    cases live : s.answers.push.live with
    | nil => simp [callEnding, live] at waits
    | cons ok rest =>
      simp [resume_updateValue p s live, callEnding, live, writeEnding, withoutNext, Instr.packet]
  | responseIn p => rfl
  | identifyDevice p =>
    by_cases firmware : p.comp = s.cfg.idFirmwareVersion
    · cases live : s.answers.idFirmware.live with
      | nil => simp [callEnding, firmware, live] at waits
      | cons v rest =>
        simp [resume_identifyDevice_firmware p s firmware live, callEnding, firmware, live,
          identityEnding, withoutNext, Instr.packet]
    · cases live : s.answers.idDevice.live with
      | nil => simp [callEnding, firmware, live] at waits
      | cons v rest =>
        simp [resume_identifyDevice_other p s firmware live, callEnding, firmware, live,
          identityEnding, withoutNext, Instr.packet]
  | unassignedMessage p => rfl

/-! ### The ending of a transaction from the acceptance of its word -/

/-- A reply with a result code before any call. -/
def resultEnding (cfg : Config) (r : ResultCode) : Ending := .replies none r (resultWire cfg r)

/-- How the transaction of an instruction ends: gates, own checks, call (43_command_dispatcher.md
R160). -/
def endingOf (cfg : Config) (a : Answers) (i : Instr) : Ending :=
  if versionSupported cfg i.packet.ver then
    if chkVerify cfg (encodePacket i.packet) then
      match lookup cfg i.packet.comp with
      | none => resultEnding cfg .unknownCommand
      | some d => if checksPass i d then callEnding cfg a i else resultEnding cfg (checkResult i)
    else .silent none .crcError
  else resultEnding cfg .unsupported

theorem endingOf_of_pass {cfg : Config} {i : Instr} {d : Descriptor} (a : Answers)
    (pass : GatesPass cfg i.packet d) (checks : checksPass i d = true) :
    endingOf cfg a i = callEnding cfg a i := by
  obtain ⟨version, checksum, known⟩ := pass
  simp only [endingOf, version, checksum, known, checks, if_true]

/-- Every instruction on an IDLE core does what its ending says. -/
theorem exec_eq_endingOf {s : State} (hs : Ready s) (i : Instr) :
    exec i s = .next ((endingOf s.cfg s.answers i).apply i.packet (accept i s)) := by
  rw [exec_ready hs]
  refine congrArg Host.Outcome.next ?_
  obtain ⟨version, replies⟩ | ⟨version, mismatch, ends⟩ | ⟨version, verified, unknown, replies⟩ |
    ⟨d, pass, handled⟩ := gates_cases i.packet (handlerBody i) (accept i s)
  · rw [accept_cfg] at version
    rw [replies, endingOf, version]
    rfl
  · rw [accept_cfg] at version mismatch
    rw [ends, endingOf, version, mismatch]
    rfl
  · rw [accept_cfg] at version verified unknown
    simp only [replies, endingOf, version, verified, unknown]
    rfl
  · rw [accept_cfg] at pass
    rw [handled, handlerBody]
    cases checks : checksPass i d with
    | true => rw [if_pos rfl, resume_eq_callEnding, endingOf_of_pass _ pass checks]; rfl
    | false =>
      obtain ⟨version, verified, known⟩ := pass
      simp only [endingOf, version, verified, known, checks]
      rfl

/-- A transaction waits only behind its gates and checks, and for its call. -/
theorem pass_of_endingOf_eq_waits {cfg : Config} {a : Answers} {i : Instr}
    (waits : endingOf cfg a i = .waits) :
    (∃ d, GatesPass cfg i.packet d ∧ checksPass i d = true) ∧ callEnding cfg a i = .waits := by
  unfold endingOf at waits
  split_ifs at waits with version verified
  · split at waits
    case h_1 => cases waits
    case h_2 d known =>
      split_ifs at waits with checks
      · exact ⟨⟨d, ⟨version, verified, known⟩, checks⟩, waits⟩
      · cases waits
  · cases waits

/-! ### What the result of an ending says -/

/-- CRC_ERROR and deliveries are the endings without a word, and they alone (43_command_dispatcher.md
R163, R179, R184). -/
def Ending.Fits (i : Instr) : Ending → Prop
  | .waits => True
  | .replies _ r _ => r ≠ .crcError ∧ (r = .done → ∀ p, i ≠ .responseIn p)
  | .silent made r =>
    (made = none ∧ r = .crcError) ∨
      (∃ p, i = .responseIn p ∧ made = some ⟨.deliver p, .nothing⟩ ∧ r = .done)

theorem onFirst_fits {α : Type} {i : Instr} (live : List α) {ending : α → Ending}
    (fits : ∀ a, (ending a).Fits i) : (onFirst live ending).Fits i := by
  cases live with
  | nil => trivial
  | cons a rest => exact fits a

theorem okResult_ne_crcError (ok : Bool) : okResult ok ≠ .crcError := by
  cases ok <;> decide

theorem callEnding_fits (cfg : Config) (a : Answers) (i : Instr) : (callEnding cfg a i).Fits i := by
  cases i with
  | readDeviceId p => exact onFirst_fits _ fun v => ⟨nofun, fun _ _ => nofun⟩
  | readFirmwareVersion p => exact onFirst_fits _ fun v => ⟨nofun, fun _ _ => nofun⟩
  | readValue p =>
    refine onFirst_fits _ fun ⟨v, ok⟩ => ?_
    cases ok <;> exact ⟨nofun, fun _ _ => nofun⟩
  | setValue p => exact onFirst_fits _ fun ok => ⟨okResult_ne_crcError ok, fun _ _ => nofun⟩
  | updateValue p => exact onFirst_fits _ fun ok => ⟨okResult_ne_crcError ok, fun _ _ => nofun⟩
  | responseIn p => exact .inr ⟨p, rfl, rfl, rfl⟩
  | identifyDevice p =>
    rw [callEnding]
    split_ifs <;> exact onFirst_fits _ fun v => ⟨nofun, fun _ _ => nofun⟩
  | unassignedMessage p => exact ⟨nofun, nofun⟩

theorem checkResult_ne (i : Instr) : checkResult i ≠ .crcError ∧ checkResult i ≠ .done := by
  cases i <;> exact ⟨nofun, nofun⟩

theorem endingOf_fits (cfg : Config) (a : Answers) (i : Instr) : (endingOf cfg a i).Fits i := by
  unfold endingOf
  split_ifs
  · split
    case h_1 => exact ⟨nofun, nofun⟩
    case h_2 d _ =>
      split_ifs
      · exact callEnding_fits cfg a i
      · obtain ⟨notCrcError, notDone⟩ := checkResult_ne i
        exact ⟨notCrcError, fun done => absurd done notDone⟩
  · exact .inl ⟨rfl, rfl⟩
  · exact ⟨nofun, nofun⟩

/-! ### What an ending does to each part of the state -/

section
variable (p : Packet) (e : Ending) (s : State)

@[simp] theorem afterCall_cfg (made : Option CallRecord) : (afterCall made s).cfg = s.cfg := by
  cases made <;> rfl

@[simp] theorem afterCall_answers (made : Option CallRecord) :
    (afterCall made s).answers = takenBy made s.answers := by
  cases made <;> rfl

@[simp] theorem ownSeq_afterCall (made : Option CallRecord) :
    ownSeq (afterCall made s) = ownSeq s := by
  cases made <;> rfl

@[simp] theorem Ending.apply_answers : (e.apply p s).answers = takenBy e.made s.answers := by
  cases e with
  | waits => rfl
  | replies made r v => exact afterCall_answers s made
  | silent made r => exact afterCall_answers s made

end

/-- A call completed inside a transaction is the only one it notes. -/
theorem MidTransaction.afterCall {s u : State} (mid : MidTransaction s u [])
    (made : Option CallRecord) : MidTransaction s (afterCall made u) made.toList := by
  cases made with
  | none => exact mid
  | some m => exact mid.afterAnswer m.call m.answer _

theorem midTransaction_clearOutputs (s : State) : MidTransaction s (clearOutputs s) [] where
  cfg := rfl
  seq := rfl
  rx := rfl
  control := rfl
  history := rfl
  calls := (List.append_nil _).symm

section
variable {s u : State}

theorem MidTransaction.kept_apply (mid : MidTransaction s u []) (p : Packet) (e : Ending) :
    Kept s (e.apply p u) := by
  cases e with
  | waits => exact ⟨mid.cfg, mid.rx, mid.control, fun j _ => congrArg (seqGet · j) mid.seq⟩
  | replies made r v => exact (mid.afterCall made).kept_replyWith p r v
  | silent made r => exact ((mid.afterCall made).endedSilently p r).kept

theorem MidTransaction.calls_apply (mid : MidTransaction s u []) (p : Packet) (e : Ending) :
    (e.apply p u).calls = s.calls ++ e.made.toList := by
  cases e with
  | waits => exact mid.calls
  | replies made r v => exact (mid.afterCall made).calls
  | silent made r => exact (mid.afterCall made).calls

/-- The transaction of `p` that began in `s` has ended in `t` with result `r`, one triple of the run,
and the own counter advanced exactly if a word goes out (43_command_dispatcher.md R161). -/
structure EndedWith (s t : State) (p : Packet) (r : ResultCode) : Prop where
  stage   : t.stage = .idle
  res     : t.res = some r
  history : t.history = s.history ++ [⟨encodePacket p, r, t.tx⟩]
  own     : ownSeq t = ownSeq s + (if t.tx.isSome then 1#5 else 0#5)

/-- Any ending but waiting ends the transaction. -/
theorem MidTransaction.endedWith_apply (mid : MidTransaction s u []) (p : Packet) {e : Ending}
    (ends : e ≠ .waits) : ∃ r, EndedWith s (e.apply p u) p r := by
  cases e with
  | waits => exact absurd rfl ends
  | replies made r v =>
    have mid := mid.afterCall made
    refine ⟨r, rfl, rfl, congrArg (· ++ [_]) mid.history, ?_⟩
    exact (ownSeq_replyWith p r v _).trans (congrArg (· + 1#5) mid.ownSeq_eq)
  | silent made r =>
    have mid := mid.afterCall made
    refine ⟨r, rfl, rfl, congrArg (· ++ [_]) mid.history, ?_⟩
    exact mid.ownSeq_eq.trans (BitVec.add_zero _).symm

end

/-! ### The step, by what it finds -/

section
variable {s : State} (hcfg : configProblem s.cfg = none) (noRequest : s.control = none)
include hcfg noRequest

/-- A BUSY core goes on with its call. -/
theorem step_of_busy {i : Instr} (busy : s.stage = .busy i) :
    step s = .next ((callEnding s.cfg s.answers i).apply i.packet (clearOutputs s)) := by
  have resumed : step s = .next (resume i (clearOutputs s)) := by
    simp only [step, noRequest, hcfg, busy]
  rw [resumed, resume_eq_callEnding]
  rfl

theorem step_of_no_word (idle : s.stage = .idle) (noWord : s.rx = []) :
    step s = .next (clearOutputs s) := by
  simp only [step, noRequest, hcfg, idle, fetch, noWord]

theorem step_of_word (idle : s.stage = .idle) {w : Word} {ws : List Word} (offered : s.rx = w :: ws) :
    step s = exec (decode s.cfg w) { s with rx := ws } := by
  simp only [step, noRequest, hcfg, idle, fetch, offered]

end

end Sys2Proof.Machine
end

section
/-! PROOFS. Accepting, waiting, holding and resetting (10_state.md R22, R26 to R28;
70_reset_and_hazards.md R250, R251, R256, R258). -/

namespace Sys2Proof.Machine

/-! ### Acceptance -/

/-- Settles O36: the step of an IDLE core with a word offered, and the decoder's round trip. -/
theorem stepRunsTheDecodedInstruction : Obligations.StepRunsTheDecodedInstruction := by
  intro s w ws ⟨hcfg, idle⟩ noRequest offered
  exact ⟨step_of_word hcfg noRequest idle offered, decode_wellFormed s.cfg w, encode_decode s.cfg w⟩

/-- Settles O37: the step of an IDLE core with no word offered. -/
theorem noOfferedWordStartsNoTransaction : Obligations.NoOfferedWordStartsNoTransaction := by
  intro s ⟨hcfg, idle⟩ noRequest noWord
  exact step_of_no_word hcfg noRequest idle noWord

/-- Settles O45: each of the three steps without a request has a next state. -/
theorem everyStepUnderAnAcceptedConfigurationGoesOn :
    Obligations.EveryStepUnderAnAcceptedConfigurationGoesOn := by
  intro s hcfg noRequest
  cases stage : s.stage with
  | busy i => exact ⟨_, step_of_busy hcfg noRequest stage⟩
  | idle =>
    cases words : s.rx with
    | nil => exact ⟨_, step_of_no_word hcfg noRequest stage words⟩
    | cons w ws =>
      rw [step_of_word hcfg noRequest stage words]
      exact ⟨_, exec_eq_endingOf (s := { s with rx := ws }) ⟨hcfg, stage⟩ _⟩

/-- Settles O44: a word of this node selects RESPONSE_IN and passes the gates, so O26 says how it
ends. -/
theorem outboundWordsAreDeliveredNotAnswered : Obligations.OutboundWordsAreDeliveredNotAnswered := by
  intro s q w d hs response supported known
  have selected : decode s.cfg w = .responseIn (decodePacket w) := by
    rw [decode, selectHandler, response.msg]
  have version : versionSupported s.cfg (decodePacket w).ver = true := by
    rw [response.ver]
    exact (versionSupported_iff _ _).mpr supported
  have verified : chkVerify s.cfg (encodePacket (decodePacket w)) = true := by
    rw [encodePacket_decodePacket]
    exact response.chk
  obtain ⟨t, delivered, -, ended⟩ :=
    responseInDeliversAndSendsNothing s (decodePacket w) d hs ⟨version, verified, known⟩
  exact ⟨t, selected ▸ delivered, ended⟩

/-! ### A call without an answer -/

/-- Settles O32: the checks pass, and the handler leaves the accepted state as it is. -/
theorem unansweredCallLeavesTheCoreBusy : Obligations.UnansweredCallLeavesTheCoreBusy := by
  intro s i d c hs pass checks call unanswered
  have waits : resume i (accept i s) = accept i s := resume_waits i _ c call unanswered
  exact ⟨accept i s, waits ▸ exec_of_checks_pass hs pass checks, call, rfl⟩

/-- One step of a core whose call has no answer. -/
theorem step_of_unanswered {s : State} {i : Instr} {c : Call} (hcfg : configProblem s.cfg = none)
    (noRequest : s.control = none) (busy : s.stage = .busy i) (call : handlerCall s.cfg i = some c)
    (unanswered : answerReady s.answers c = false) : step s = .next (clearOutputs s) := by
  have waits := (callEnding_eq_waits_iff s.cfg s.answers i).mpr ⟨c, call, unanswered⟩
  rw [step_of_busy hcfg noRequest busy, waits]
  rfl

/-- Any number of steps does no more than the first: it is taken from a state of the same kind. -/
theorem runSteps_of_unanswered {i : Instr} {c : Call} (n : Nat) :
    ∀ s : State, configProblem s.cfg = none → s.control = none → s.stage = .busy i →
      handlerCall s.cfg i = some c → answerReady s.answers c = false →
      runSteps (n + 1) s = .next (clearOutputs s) := by
  induction n with
  | zero =>
    intro s hcfg noRequest busy call unanswered
    exact runSteps_succ 0 s _ (step_of_unanswered hcfg noRequest busy call unanswered)
  | succ n ih =>
    intro s hcfg noRequest busy call unanswered
    rw [runSteps_succ _ s _ (step_of_unanswered hcfg noRequest busy call unanswered)]
    exact ih (clearOutputs s) hcfg noRequest busy call unanswered

theorem handlerCall_of_outstanding {s : State} {i : Instr} {c : Call} (busy : s.stage = .busy i)
    (call : outstanding s = some c) : handlerCall s.cfg i = some c := by
  rwa [outstanding, busy] at call

/-- Settles O33: without the answer the core repeats its state; with it the ending is not waiting;
reset leaves no transaction. -/
theorem unansweredCallSticksUntilAnswerOrReset :
    Obligations.UnansweredCallSticksUntilAnswerOrReset := by
  intro s i c hcfg busy outstandingCall
  have call := handlerCall_of_outstanding busy outstandingCall
  refine ⟨fun noRequest unanswered n => ?stuck, fun noRequest answered => ?lifted,
    fun request => ?abandoned⟩
  case stuck => exact runSteps_of_unanswered n s hcfg noRequest busy call unanswered
  case lifted =>
    have ends : callEnding s.cfg s.answers i ≠ .waits := by
      rw [Ne, callEnding_eq_waits_iff]
      rintro ⟨c', call', unanswered⟩
      rw [← Option.some.inj (call.symm.trans call'), answered] at unanswered
      exact Bool.noConfusion unanswered
    obtain ⟨r, ended⟩ := (midTransaction_clearOutputs s).endedWith_apply i.packet ends
    exact ⟨_, step_of_busy hcfg noRequest busy, ended.stage, by rw [ended.res]; rfl⟩
  case abandoned =>
    exact ⟨_, step_of_control request, resetCore_stage _ _, resetCore_res _ _,
      outstanding_of_idle _ (resetCore_stage _ _)⟩

/-- Settles O34: a transaction left BUSY has passed its gates and checks, so with the answers there at
once it would have gone on to the same call. -/
theorem lateAnswersGiveTheSameOutcome : Obligations.LateAnswersGiveTheSameOutcome := by
  intro s b i a hs noRequest exec_b notIdle
  have mid := midTransaction_accept i s
  rw [exec_eq_endingOf hs, Host.Outcome.next.injEq] at exec_b
  have waits : endingOf s.cfg s.answers i = .waits := by
    by_contra ends
    obtain ⟨r, ended⟩ := mid.endedWith_apply i.packet ends
    exact notIdle (exec_b ▸ ended.stage)
  obtain ⟨⟨d, pass, checks⟩, -⟩ := pass_of_endingOf_eq_waits waits
  rw [waits] at exec_b
  subst exec_b
  have later := step_of_busy (s := { accept i s with answers := a }) hs.1 noRequest rfl
  have atOnce := exec_eq_endingOf (s := { s with answers := a }) hs i
  rw [endingOf_of_pass a pass checks] at atOnce
  exact later.trans atOnce.symm

/-! ### Held words -/

/-- Settles O35: a BUSY core goes on with its own transaction, and an IDLE one takes the first word. -/
theorem offeredWordsAreHeldWhileBusy : Obligations.OfferedWordsAreHeldWhileBusy := by
  refine ⟨fun s i hcfg noRequest busy => ?held, fun s i j hcfg busy => ?execBusy,
    fun s w ws hs noRequest offered => ?accepted⟩
  case held =>
    have mid := midTransaction_clearOutputs s
    refine ⟨_, step_of_busy hcfg noRequest busy, (mid.kept_apply i.packet _).rx, ?_⟩
    by_cases waits : callEnding s.cfg s.answers i = .waits
    · rw [waits]
      exact .inl ⟨busy, rfl⟩
    · obtain ⟨r, ended⟩ := mid.endedWith_apply i.packet waits
      exact .inr ⟨ended.stage, by rw [ended.history, List.length_append, List.length_singleton]⟩
  case execBusy => rw [exec_eq, transact_busy _ i _ _ hcfg busy]
  case accepted =>
    obtain ⟨hcfg, idle⟩ := hs
    let i := decode s.cfg w
    have mid := midTransaction_accept i { s with rx := ws }
    have accepted := exec_eq_endingOf (s := { s with rx := ws }) ⟨hcfg, idle⟩ i
    refine ⟨_, (step_of_word hcfg noRequest idle offered).trans accepted,
      (mid.kept_apply i.packet _).rx, ?_⟩
    by_cases waits : endingOf s.cfg s.answers i = .waits
    · rw [waits]
      exact .inl rfl
    · obtain ⟨r, ended⟩ := mid.endedWith_apply i.packet waits
      have word : encodePacket i.packet = w := encode_decode s.cfg w
      exact .inr ⟨r, _, word ▸ ended.history⟩

/-! ### Reset -/

/-- A request for reset is served with the core's own configuration or the one given
(70_reset_and_hazards.md R250, R254). -/
theorem step_of_reset {s : State} {cfg : Config}
    (request : (s.control = some .reset ∧ cfg = s.cfg) ∨ s.control = some (.resetWith cfg)) :
    step s = .next (resetCore cfg (clearOutputs s)) := by
  obtain ⟨reset, rfl⟩ | resetWith := request
  · exact step_of_control reset
  · exact step_of_control resetWith

theorem resetCore_answers_of_idle {s : State} (cfg : Config) (free : outstanding s = none) :
    (resetCore cfg s).answers = s.answers := by
  simp only [resetCore, free]

theorem resetCore_answers_of_call {s : State} (cfg : Config) {c : Call}
    (call : outstanding s = some c) : (resetCore cfg s).answers = ignoreAnswer s.answers c := by
  simp only [resetCore, call]

/-- Settles O39: every clause reads one part of the state after reset. -/
theorem resetAbandonsTheTransactionInFlight : Obligations.ResetAbandonsTheTransactionInFlight := by
  intro s cfg request
  exact ⟨_, step_of_reset request, resetCore_cfg _ _, resetCore_stage _ _, resetCore_res _ _,
    resetCore_tx _ _, outstanding_of_idle _ (resetCore_stage _ _), seqGet_afterReset_own cfg,
    seqGet_afterReset_other cfg, resetCore_history _ _, resetCore_calls _ _, resetCore_rx _ _,
    resetCore_control _ _, resetCore_answers_of_idle cfg, fun _ => resetCore_answers_of_call cfg⟩

end Sys2Proof.Machine
end

section
/-! PROOFS. Over all instructions and all steps: what is kept, what is counted, and what the outcome
depends on (43_command_dispatcher.md R161, R165, R183; 70_reset_and_hazards.md R251). -/

namespace Sys2Proof.Machine

/-! ### What is kept -/

theorem Kept.refl (s : State) : Kept s s := ⟨rfl, rfl, rfl, fun _ _ => rfl⟩

/-- An instruction that answers a next state found the core accepted, and either held or idle. -/
theorem exec_next_cases {s t : State} {i : Instr} (next : exec i s = .next t) :
    configProblem s.cfg = none ∧
      ((∃ j, s.stage = .busy j ∧ t = s) ∨
       (s.stage = .idle ∧ t = (endingOf s.cfg s.answers i).apply i.packet (accept i s))) := by
  have inverted := next
  rw [exec_eq] at inverted
  obtain ⟨hcfg, held | ⟨idle, -⟩⟩ := transact_next _ _ _ _ inverted
  · exact ⟨hcfg, .inl held⟩
  · rw [exec_eq_endingOf ⟨hcfg, idle⟩, Host.Outcome.next.injEq] at next
    exact ⟨hcfg, .inr ⟨idle, next.symm⟩⟩

theorem kept_of_exec_next {s t : State} {i : Instr} (next : exec i s = .next t) : Kept s t := by
  obtain ⟨-, ⟨j, -, rfl⟩ | ⟨-, rfl⟩⟩ := exec_next_cases next
  · exact Kept.refl t
  · exact (midTransaction_accept i s).kept_apply i.packet _

/-- Everything a step that has a next state can do: it serves a reset or a configuration already in
force, goes on with a call, presents nothing more, or runs the next word's transaction. -/
theorem step_next_cases {s t : State} (next : step s = .next t) :
    (∃ cfg, ((s.control = some .reset ∧ cfg = s.cfg) ∨ s.control = some (.resetWith cfg)) ∧
      t = resetCore cfg (clearOutputs s)) ∨
    t = { clearOutputs s with control := none } ∨
    (configProblem s.cfg = none ∧ ∃ i, s.stage = .busy i ∧
      t = (callEnding s.cfg s.answers i).apply i.packet (clearOutputs s)) ∨
    (Ready s ∧ t = clearOutputs s) ∨
    (Ready s ∧ ∃ w ws, s.rx = w :: ws ∧
      t = (endingOf s.cfg s.answers (decode s.cfg w)).apply (decodePacket w)
        (accept (decode s.cfg w) { s with rx := ws })) := by
  obtain ⟨c, request, served⟩ | ⟨-, e, -, refused⟩ | ⟨-, hcfg, i, busy, resumed⟩ |
    ⟨-, hs, -, cleared⟩ | ⟨-, hs, w, ws, offered, ran⟩ := step_cases s
  · rw [served] at next
    cases c with
    | reset => cases next; exact .inl ⟨_, .inl ⟨request, rfl⟩, rfl⟩
    | resetWith cfg => cases next; exact .inl ⟨cfg, .inr request, rfl⟩
    | reconfigure cfg =>
      rw [applyControl] at next
      split_ifs at next
      cases next
      exact .inr (.inl rfl)
  · rw [refused] at next
    cases next
  · rw [resumed, resume_eq_callEnding] at next
    cases next
    exact .inr (.inr (.inl ⟨hcfg, i, busy, rfl⟩))
  · rw [cleared] at next
    cases next
    exact .inr (.inr (.inr (.inl ⟨hs, rfl⟩)))
  · rw [ran, exec_eq_endingOf (s := { s with rx := ws }) hs, decode_packet] at next
    cases next
    exact .inr (.inr (.inr (.inr ⟨hs, w, ws, offered, rfl⟩)))

/-- Settles O40: a transaction keeps what `Kept` lists, and no other step but reset writes the
configuration or the counter file. -/
theorem nothingWritesConfigurationOrForeignCounters :
    Obligations.NothingWritesConfigurationOrForeignCounters := by
  refine ⟨fun s t i next => kept_of_exec_next next, fun s t noResetWith noReset next => ?step⟩
  case step =>
    obtain ⟨cfg, ⟨reset, -⟩ | resetWith, -⟩ | rfl | ⟨-, i, -, rfl⟩ | ⟨-, rfl⟩ | ⟨-, w, ws, -, rfl⟩ :=
      step_next_cases next
    · exact absurd reset noReset
    · exact absurd resetWith (noResetWith cfg)
    · exact ⟨rfl, fun _ _ => rfl⟩
    · have kept := (midTransaction_clearOutputs s).kept_apply i.packet (callEnding s.cfg s.answers i)
      exact ⟨kept.cfg, kept.others⟩
    · exact ⟨rfl, fun _ _ => rfl⟩
    · have kept := (midTransaction_accept (decode s.cfg w) { s with rx := ws }).kept_apply
        (decodePacket w) (endingOf s.cfg s.answers (decode s.cfg w))
      exact ⟨kept.cfg, kept.others⟩

/-! ### What is counted -/

/-- CRC_ERROR comes before any call, and without a word. -/
theorem Ending.Fits.silent_of_crcError {i : Instr} {e : Ending} (fits : e.Fits i) (ends : e ≠ .waits)
    {p : Packet} {u : State} (crcError : (e.apply p u).res = some .crcError) :
    (e.apply p u).tx = none ∧ e.made = none := by
  cases e with
  | waits => exact absurd rfl ends
  | replies made r v => exact absurd (Option.some.inj crcError) fits.1
  | silent made r =>
    obtain ⟨noCall, -⟩ | ⟨q, -, -, rfl⟩ := fits
    · exact ⟨rfl, noCall⟩
    · cases crcError

/-- Settles O41: a transaction waits with nothing moved, or has ended with at most the one call of its
ending. -/
theorem transactionCountsHold : Obligations.TransactionCountsHold := by
  intro s i hs
  have mid := midTransaction_accept i s
  refine ⟨_, exec_eq_endingOf hs i, ?_⟩
  generalize ending : endingOf s.cfg s.answers i = e
  have fits : e.Fits i := ending ▸ endingOf_fits s.cfg s.answers i
  by_cases waits : e = .waits
  case pos =>
    rw [waits]
    exact .inr ⟨rfl, rfl, rfl, rfl, rfl, rfl, rfl⟩
  case neg =>
    obtain ⟨r, ended⟩ := mid.endedWith_apply i.packet waits
    have calls := mid.calls_apply i.packet e
    refine .inl ⟨r, ended.stage, ended.res, ended.history, ?atMostOne, ended.own, fun crcError => ?_⟩
    case atMostOne =>
      cases made : e.made with
      | none => exact .inl (by rw [calls, made, Option.toList_none, List.append_nil])
      | some m => exact .inr ⟨m, by rw [calls, made, Option.toList_some]⟩
    · obtain ⟨noWord, noCall⟩ := fits.silent_of_crcError waits (crcError ▸ ended.res)
      exact ⟨noWord, by rw [calls, noCall, Option.toList_none, List.append_nil]⟩

/-! ### What the outcome depends on -/

/-- Answers to abandoned calls do not take part in the ending (70_reset_and_hazards.md R251). -/
theorem endingOf_liveAnswers (cfg : Config) (a : Answers) (i : Instr) :
    endingOf cfg (liveAnswers a) i = endingOf cfg a i := by
  have call : callEnding cfg (liveAnswers a) i = callEnding cfg a i := by cases i <;> rfl
  simp only [endingOf, call]

theorem endingOf_congr {cfg : Config} {a a' : Answers} (same : liveAnswers a = liveAnswers a')
    (i : Instr) : endingOf cfg a i = endingOf cfg a' i := by
  rw [← endingOf_liveAnswers, same, endingOf_liveAnswers]

theorem liveAnswers_takenBy (made : Option CallRecord) (a : Answers) :
    liveAnswers (takenBy made a) = takenBy made (liveAnswers a) := by
  cases made with
  | none => rfl
  | some m =>
    obtain ⟨call, answer⟩ := m
    cases call <;> rfl

theorem buildResponse_congr {u u' : State} (cfg : u.cfg = u'.cfg) (own : ownSeq u = ownSeq u')
    (c : CompId) (v : Byte) : (buildResponse c v u).1 = (buildResponse c v u').1 := by
  simp only [buildResponse, nextSeq_fst, cfg, own]

section
variable {u u' : State} {p p' : Packet} (e : Ending)

/-- The outputs of an ending depend on the request's ComponentID, the configuration and the own
counter. -/
theorem Ending.outputs_congr (comp : p.comp = p'.comp) (cfg : u.cfg = u'.cfg)
    (own : ownSeq u = ownSeq u') (res : u.res = u'.res) (tx : u.tx = u'.tx) :
    (e.apply p u).res = (e.apply p' u').res ∧ (e.apply p u).tx = (e.apply p' u').tx := by
  cases e with
  | waits => exact ⟨res, tx⟩
  | replies made r v =>
    have word : (buildResponse p.comp v (afterCall made u)).1 =
        (buildResponse p'.comp v (afterCall made u')).1 := by
      rw [comp]
      exact buildResponse_congr (by simpa using cfg) (by simpa using own) p'.comp v
    exact ⟨rfl, congrArg some word⟩
  | silent made r => exact ⟨rfl, rfl⟩

theorem Ending.stage_congr (stage : u.stage = u'.stage) :
    (e.apply p u).stage = (e.apply p' u').stage := by
  cases e with
  | waits => exact stage
  | replies made r v => rfl
  | silent made r => rfl

theorem Ending.ownSeq_congr (own : ownSeq u = ownSeq u') :
    ownSeq (e.apply p u) = ownSeq (e.apply p' u') := by
  cases e with
  | waits => exact own
  | replies made r v => simp [Ending.apply, own]
  | silent made r => simp [Ending.apply, own]

theorem Ending.seq_congr (cfg : u.cfg = u'.cfg) (seq : u.seq = u'.seq) :
    (e.apply p u).seq = (e.apply p' u').seq := by
  cases e with
  | waits => exact seq
  | replies made r v => cases made <;> simp [Ending.apply, afterCall, answered, ownSeq, cfg, seq]
  | silent made r => cases made <;> simp [Ending.apply, afterCall, answered, seq]

end

/-- Settles O42: both transactions have the same ending, and it does the same to both states. -/
theorem outcomeDependsOnWordConfigCounterAndAnswersOnly :
    Obligations.OutcomeDependsOnWordConfigCounterAndAnswersOnly := by
  intro s s' u u' i cfg stage idle own live next next'
  have idle' : s'.stage = .idle := stage ▸ idle
  obtain ⟨hcfg, -⟩ := exec_next_cases next
  have sameEnding : endingOf s'.cfg s'.answers i = endingOf s.cfg s.answers i := by
    rw [← cfg, endingOf_congr live]
  rw [exec_eq_endingOf ⟨hcfg, idle⟩, Host.Outcome.next.injEq] at next
  rw [exec_eq_endingOf ⟨cfg ▸ hcfg, idle'⟩, sameEnding, Host.Outcome.next.injEq] at next'
  subst next next'
  generalize endingOf s.cfg s.answers i = e
  obtain ⟨res, tx⟩ := e.outputs_congr (p := i.packet) (u := accept i s) (u' := accept i s') rfl cfg
    own rfl rfl
  refine ⟨res, tx, e.stage_congr rfl, e.ownSeq_congr own, ?live, fun same => ?answers, e.made.toList,
    (midTransaction_accept i s).calls_apply _ e, (midTransaction_accept i s').calls_apply _ e⟩
  case live =>
    rw [Ending.apply_answers, Ending.apply_answers, liveAnswers_takenBy, liveAnswers_takenBy]
    exact congrArg (takenBy e.made) live
  case answers =>
    rw [Ending.apply_answers, Ending.apply_answers]
    exact congrArg (takenBy e.made) same

/-! ### Ignored fields -/

/-- The same handler on another packet. -/
def withPacket (q : Packet) : Instr → Instr
  | .readDeviceId _ => .readDeviceId q
  | .readFirmwareVersion _ => .readFirmwareVersion q
  | .readValue _ => .readValue q
  | .setValue _ => .setValue q
  | .updateValue _ => .updateValue q
  | .responseIn _ => .responseIn q
  | .identifyDevice _ => .identifyDevice q
  | .unassignedMessage _ => .unassignedMessage q

@[simp] theorem withPacket_packet (q : Packet) (i : Instr) : (withPacket q i).packet = q := by
  cases i <;> rfl

/-- The selection reads the MessageID code and the ComponentID alone (30_encoding.md R82). -/
theorem selectHandler_eq_withPacket (cfg : Config) {p q : Packet} (msg : p.msg = q.msg)
    (comp : p.comp = q.comp) : selectHandler cfg q = withPacket q (selectHandler cfg p) := by
  unfold selectHandler
  rw [← msg, ← comp]
  split
  case h_1 => split_ifs <;> rfl
  all_goals rfl

/-- A packet that differs from an instruction's own only in fields its handler ignores
(43_command_dispatcher.md R165). -/
structure IgnoresChange (i : Instr) (q : Packet) : Prop where
  notDelivered : i.msgType ≠ some .response
  comp : q.comp = i.packet.comp
  val  : q.val = i.packet.val ∨ (i.msgType ≠ some .setValue ∧ i.msgType ≠ some .updateValue)

section
variable {i : Instr} {q : Packet} (ignores : IgnoresChange i q)
include ignores

theorem callEnding_withPacket (cfg : Config) (a : Answers) :
    callEnding cfg a (withPacket q i) = callEnding cfg a i := by
  obtain ⟨notDelivered, comp, val⟩ := ignores
  cases i <;> simp_all [callEnding, withPacket, Instr.packet, Instr.msgType]

theorem checksPass_withPacket (d : Descriptor) :
    checksPass (withPacket q i) d = checksPass i d := by
  obtain ⟨-, -, val⟩ := ignores
  cases i <;> simp_all [checksPass, withPacket, Instr.packet, Instr.msgType]

omit ignores in
theorem checkResult_withPacket : checkResult (withPacket q i) = checkResult i := by
  cases i <;> rfl

/-- Such a packet, of the same version and verified as the own one is, ends in the same way. -/
theorem endingOf_withPacket {cfg : Config} (a : Answers) (ver : q.ver = i.packet.ver)
    (verified : chkVerify cfg (encodePacket q) = chkVerify cfg (encodePacket i.packet)) :
    endingOf cfg a (withPacket q i) = endingOf cfg a i := by
  have comp := ignores.comp
  simp only [endingOf, withPacket_packet, ver, verified, comp, callEnding_withPacket ignores,
    checksPass_withPacket ignores, checkResult_withPacket]

end

/-- Settles O43: the second word's instruction is the first's on another packet, and what the packets
differ in is read by no gate, check, call or response. -/
theorem ignoredFieldsDoNotChangeTheOutcome : Obligations.IgnoredFieldsDoNotChangeTheOutcome := by
  intro s u u' w w' idle verified verified' ver comp msg notResponse val next next'
  obtain ⟨hcfg, -⟩ := exec_next_cases next
  have selected : decode s.cfg w' = withPacket (decodePacket w') (decode s.cfg w) :=
    selectHandler_eq_withPacket s.cfg msg comp
  obtain ⟨type, -⟩ := Laws.PacketCarried.of_wellFormed _ _ (decode_wellFormed s.cfg w)
  rw [decode_packet] at type
  rw [type] at notResponse val
  have ignores : IgnoresChange (decode s.cfg w) (decodePacket w') :=
    { notDelivered := notResponse
      comp := by rw [decode_packet, comp]
      val := val.imp_left fun same => by rw [decode_packet, same] }
  have sameEnding : endingOf s.cfg s.answers (decode s.cfg w') =
      endingOf s.cfg s.answers (decode s.cfg w) := by
    rw [selected]
    exact endingOf_withPacket ignores s.answers (by rw [decode_packet, ver])
      (by rw [decode_packet, encodePacket_decodePacket, encodePacket_decodePacket, verified, verified'])
  rw [exec_eq_endingOf ⟨hcfg, idle⟩, decode_packet, Host.Outcome.next.injEq] at next
  rw [exec_eq_endingOf ⟨hcfg, idle⟩, sameEnding, decode_packet, Host.Outcome.next.injEq] at next'
  subst next next'
  generalize endingOf s.cfg s.answers (decode s.cfg w) = e
  obtain ⟨res, tx⟩ := e.outputs_congr (u := accept (decode s.cfg w) s)
    (u' := accept (decode s.cfg w') s) comp rfl rfl rfl rfl
  refine ⟨res, tx, ?calls, e.seq_congr rfl rfl, ?answers⟩
  case calls =>
    rw [(midTransaction_accept _ s).calls_apply _ e, (midTransaction_accept _ s).calls_apply _ e]
  case answers => rw [Ending.apply_answers, Ending.apply_answers, accept_answers, accept_answers]

/-! ### Abandoned calls -/

/-- On each port the answers that can be taken are those without the one the abandoned call would have
taken, in whatever order reset and answers came. -/
theorem liveAnswers_arrive_ignoreAnswer (a more : Answers) (c : Call) :
    liveAnswers (arrive (ignoreAnswer a c) more) = liveAnswers (withoutNext (arrive a more) c) := by
  cases c <;> simp [liveAnswers, arrive, ignoreAnswer, withoutNext]

/-- An ending reads no answers: it takes one off whatever ports it is given. -/
theorem Ending.apply_with_answers (e : Ending) (p : Packet) (u : State) (a a' : Answers) :
    { e.apply p { u with answers := a } with answers := a' } =
      { e.apply p u with answers := a' } := by
  cases e with
  | waits => rfl
  | replies made r v => cases made <;> rfl
  | silent made r => cases made <;> rfl

/-- Instructions on states that differ only in answers to abandoned calls end alike. -/
theorem sameButStaleAnswers_of_exec {s u : State} {a a' : Answers} {i : Instr}
    (idle : s.stage = .idle) (same : liveAnswers a = liveAnswers a')
    (next : exec i { s with answers := a } = .next u) :
    ∃ u', exec i { s with answers := a' } = .next u' ∧ SameButStaleAnswers u u' := by
  obtain ⟨hcfg, -⟩ := exec_next_cases next
  rw [exec_eq_endingOf ⟨hcfg, idle⟩, endingOf_congr same, Host.Outcome.next.injEq] at next
  refine ⟨_, exec_eq_endingOf (s := { s with answers := a' }) ⟨hcfg, idle⟩ i, ?_, ?_⟩
  · rw [← next, Ending.apply_answers, Ending.apply_answers, liveAnswers_takenBy, liveAnswers_takenBy]
    exact congrArg (takenBy _) same
  · rw [← next]
    exact (Ending.apply_with_answers _ i.packet (accept i s) a _).trans
      (Ending.apply_with_answers _ i.packet (accept i s) a' _).symm

/-- Settles O51: reset leaves the ports with the abandoned answer marked, and marked answers are never
taken. -/
theorem answerToAnAbandonedCallIsIgnoredWheneverItComes :
    Obligations.AnswerToAnAbandonedCallIsIgnoredWheneverItComes := by
  intro s c cfg call request
  refine ⟨_, step_of_reset request, fun more => ?_⟩
  have abandoned : (resetCore cfg (clearOutputs s)).answers = ignoreAnswer s.answers c :=
    resetCore_answers_of_call cfg call
  rw [abandoned]
  have same := liveAnswers_arrive_ignoreAnswer s.answers more c
  exact ⟨same, fun i u next => sameButStaleAnswers_of_exec (resetCore_stage _ _) same next⟩

end Sys2Proof.Machine
end

section
/-! PROOFS. Runs: the invariant of a run and the serial service of the words offered (10_state.md R24,
R29, R30; 20_memory.md R58; 70_reset_and_hazards.md R250, R257, R260). -/

namespace Sys2Proof.Machine

/-! ### The invariant at the start of a run -/

/-- The invariant of a run holds where a run begins: IDLE, the counter file at its reset values, and
nothing observed yet. -/
theorem runInv_of_fresh {s : State} (seq : s.seq = seqAtReset s.cfg.ownSystemId s.cfg.seqInit)
    (idle : s.stage = .idle) (history : s.history = []) (calls : s.calls = []) : RunInv s := by
  have noWords : outboundWords s = [] := by rw [outboundWords, history]; rfl
  exact
    { held := fun j other => by rw [seq, seqGet_seqAtReset, if_neg other]
      counter := by
        rw [ownSeq, seq, seqGet_seqAtReset, if_pos rfl, noWords]
        exact (BitVec.add_zero _).symm
      stamped := fun k w word => by simp [noWords] at word
      silent := fun o mem => by simp [history] at mem
      oneCall := by rw [calls, history]; exact Nat.le_refl 0
      quiet := fun busy => absurd idle busy
      inFlight := fun i busy => by simp [idle] at busy }

theorem runInv_afterReset (cfg : Config) : RunInv (State.afterReset cfg) :=
  runInv_of_fresh rfl rfl rfl rfl

theorem runInv_resetCore (cfg : Config) (s : State) : RunInv (resetCore cfg s) :=
  runInv_of_fresh rfl rfl rfl rfl

/-- Settles O47: a run begins at reset. -/
theorem runInvariantAfterReset : Obligations.RunInvariantAfterReset :=
  ⟨runInv_afterReset, runInv_afterReset decidedConfig⟩

/-! ### Steps that end no transaction -/

/-- The invariant reads the configuration, the counter file and the observation; where these stay, only
its clauses on a BUSY core are to be shown again. -/
theorem RunInv.of_same_observation {s t : State} (inv : RunInv s) (cfg : t.cfg = s.cfg)
    (seq : t.seq = s.seq) (history : t.history = s.history) (calls : t.calls = s.calls)
    (quiet : t.stage ≠ .idle → t.res = none ∧ t.tx = none)
    (inFlight : ∀ i : Instr, t.stage = .busy i →
      i.wellFormed s.cfg = true ∧ (handlerCall s.cfg i).isSome = true ∧
        ∃ d, GatesPass s.cfg i.packet d ∧ checksPass i d = true) : RunInv t := by
  have own : ownSeq t = ownSeq s := by rw [ownSeq, ownSeq, cfg, seq]
  have words : outboundWords t = outboundWords s := by rw [outboundWords, outboundWords, history]
  exact
    { held := by rw [cfg, seq]; exact inv.held
      counter := by rw [own, cfg, words]; exact inv.counter
      stamped := by rw [cfg, words]; exact inv.stamped
      silent := by rw [cfg, history]; exact inv.silent
      oneCall := by rw [calls, history]; exact inv.oneCall
      quiet := quiet
      inFlight := by rw [cfg]; exact inFlight }

theorem RunInv.clearOutputs {s : State} (inv : RunInv s) : RunInv (clearOutputs s) :=
  inv.of_same_observation rfl rfl rfl rfl (fun _ => ⟨rfl, rfl⟩) inv.inFlight

/-! ### Transactions that end -/

/-- The two silent ends, told from the result and the inbound word (43_command_dispatcher.md R184). -/
def SilentEnd (cfg : Config) (w : Word) (r : ResultCode) : Prop :=
  r = .crcError ∨ (r = .done ∧ ∃ q, decode cfg w = .responseIn q)

theorem outboundWords_append {s t : State} {o : Observation} (history : t.history = s.history ++ [o]) :
    outboundWords t = outboundWords s ++ o.outbound.toList := by
  cases outbound : o.outbound <;>
    simp [outboundWords, history, List.filterMap_append, outbound]

/-- The clause on silent ends, for a run with one triple more. -/
theorem RunInv.silent_append {s : State} (inv : RunInv s) {w : Word} {r : ResultCode}
    {out : Option Word} (fits : out = none ↔ SilentEnd s.cfg w r) :
    ∀ o ∈ s.history ++ [⟨w, r, out⟩], (o.outbound = none ↔
      (o.result = .crcError ∨
        (o.result = .done ∧ ∃ p, decode s.cfg o.inbound = .responseIn p))) := by
  intro o mem
  rcases List.mem_append.mp mem with old | new
  · exact inv.silent o old
  · rw [List.mem_singleton.mp new]
    exact fits

/-- A reply extends the run by one word, numbered by the counter it advances. -/
theorem RunInv.replied {s t : State} {p : Packet} {r : ResultCode} {v : Byte}
    {made : List CallRecord} (inv : RunInv s) (replied : Replied s t p r v made)
    (oneCall : made.length ≤ 1) (notSilent : ¬ SilentEnd s.cfg (encodePacket p) r) : RunInv t := by
  obtain ⟨kept, idle, -, ⟨w, -, response, -, -, history⟩, own, calls⟩ := replied
  have words : outboundWords t = outboundWords s ++ [w] := outboundWords_append history
  exact
    { held := fun j other => by
        rw [kept.cfg] at other
        rw [kept.others j other, inv.held j other]
      counter := by
        have advanced : ownSeq t = ownSeq s + 1#5 := by
          rw [← BitVec.toNat_inj, own, BitVec.toNat_add]
          rfl
        rw [advanced, inv.counter, kept.cfg, words, List.length_append, List.length_singleton,
          BitVec.ofNat_add, BitVec.add_assoc]
      stamped := fun k w' word => by
        rw [kept.cfg]
        rw [words, List.getElem?_append] at word
        split_ifs at word with old
        · exact inv.stamped k w' word
        · rw [List.getElem?_singleton] at word
          split_ifs at word with last
          cases word
          have newest : k = (outboundWords s).length := by omega
          rw [newest, ← inv.counter]
          exact response
      silent := by
        rw [kept.cfg, history]
        exact inv.silent_append (iff_of_false (Option.some_ne_none w) notSilent)
      oneCall := by
        have before := inv.oneCall
        rw [calls, history, List.length_append, List.length_append, List.length_singleton]
        omega
      quiet := fun busy => absurd idle busy
      inFlight := fun i busy => by simp [idle] at busy }

/-- A silent end extends the run by a triple without a word. -/
theorem RunInv.endedSilently {s t : State} {p : Packet} {r : ResultCode} {made : List CallRecord}
    (inv : RunInv s) (ended : EndedSilently s t p r made) (oneCall : made.length ≤ 1)
    (silent : SilentEnd s.cfg (encodePacket p) r) : RunInv t := by
  obtain ⟨kept, idle, -, -, seq, history, calls⟩ := ended
  have own : ownSeq t = ownSeq s := by rw [ownSeq, ownSeq, kept.cfg, seq]
  have words : outboundWords t = outboundWords s :=
    (outboundWords_append history).trans (List.append_nil _)
  exact
    { held := by rw [kept.cfg, seq]; exact inv.held
      counter := by rw [own, kept.cfg, words]; exact inv.counter
      stamped := by rw [kept.cfg, words]; exact inv.stamped
      silent := by
        rw [kept.cfg, history]
        exact inv.silent_append (iff_of_true rfl silent)
      oneCall := by
        have before := inv.oneCall
        rw [calls, history, List.length_append, List.length_append, List.length_singleton]
        omega
      quiet := fun busy => absurd idle busy
      inFlight := fun i busy => by simp [idle] at busy }

theorem length_toList_le_one {α : Type} (made : Option α) : made.toList.length ≤ 1 := by
  cases made <;> simp

/-- An ending keeps the invariant: it waits on an instruction that may wait, or it extends the run. -/
theorem RunInv.apply {s u : State} {i : Instr} {e : Ending} (inv : RunInv s)
    (hcfg : configProblem s.cfg = none) (mid : MidTransaction s u [])
    (wf : i.wellFormed s.cfg = true) (fits : e.Fits i) (waiting : e = .waits → RunInv u) :
    RunInv (e.apply i.packet u) := by
  have decoded : decode s.cfg (encodePacket i.packet) = i := decode_encodePacket_of_wellFormed wf
  cases e with
  | waits => exact waiting rfl
  | replies made r v =>
    obtain ⟨notCrcError, notDelivered⟩ := fits
    refine inv.replied ((mid.afterCall made).replied hcfg i.packet r v) (length_toList_le_one made) ?_
    rintro (crcError | ⟨done, q, responseIn⟩)
    · exact notCrcError crcError
    · exact notDelivered done q (decoded.symm.trans responseIn)
  | silent made r =>
    refine inv.endedSilently ((mid.afterCall made).endedSilently i.packet r)
      (length_toList_le_one made) ?_
    obtain ⟨-, crcError⟩ | ⟨q, responseIn, -, done⟩ := fits
    · exact .inl crcError
    · exact .inr ⟨done, q, decoded.trans responseIn⟩

/-- Settles O46: of all a step can do, a reset starts a new run, a request and a step without a word
leave the observation, and a transaction goes on to one of its endings. -/
theorem runInvariantIsKeptByEveryStep : Obligations.RunInvariantIsKeptByEveryStep := by
  intro s t inv next
  obtain ⟨cfg, -, rfl⟩ | rfl | ⟨hcfg, i, busy, rfl⟩ | ⟨-, rfl⟩ | ⟨⟨hcfg, idle⟩, w, ws, offered, rfl⟩ :=
    step_next_cases next
  case inl => exact runInv_resetCore cfg _
  case inr.inl =>
    exact inv.clearOutputs.of_same_observation rfl rfl rfl rfl (fun _ => ⟨rfl, rfl⟩) inv.inFlight
  case inr.inr.inl =>
    obtain ⟨wf, -, -⟩ := inv.inFlight i busy
    exact inv.apply hcfg (midTransaction_clearOutputs s) wf (callEnding_fits _ _ i)
      fun _ => inv.clearOutputs
  case inr.inr.inr.inl => exact inv.clearOutputs
  case inr.inr.inr.inr =>
    have taken : RunInv { s with rx := ws } :=
      inv.of_same_observation rfl rfl rfl rfl inv.quiet inv.inFlight
    have wf := decode_wellFormed s.cfg w
    have mid := midTransaction_accept (decode s.cfg w) { s with rx := ws }
    rw [← decode_packet s.cfg w]
    refine taken.apply hcfg mid wf (endingOf_fits _ _ _) fun waits => ?_
    obtain ⟨pass, callWaits⟩ := pass_of_endingOf_eq_waits waits
    obtain ⟨c, call, -⟩ := (callEnding_eq_waits_iff _ _ _).mp callWaits
    refine taken.of_same_observation rfl rfl rfl rfl (fun _ => ⟨rfl, rfl⟩) fun i accepted => ?_
    obtain rfl : decode s.cfg w = i := Stage.busy.inj accepted
    exact ⟨wf, by rw [call]; rfl, pass⟩

/-! ### Words served in order -/

theorem answerReady_of_answersFor {a : Answers} {n : Nat} (enough : answersFor a (n + 1)) (c : Call) :
    answerReady a c = true := by
  obtain ⟨get, set, push, idDevice, idFirmware⟩ := enough
  have ready {α : Type} {live : List α} (long : n + 1 ≤ live.length) : (!live.isEmpty) = true := by
    cases live with
    | nil => cases long
    | cons a rest => rfl
  cases c with
  | get => exact ready get
  | set => exact ready set
  | push => exact ready push
  | deliver => rfl
  | idDevice => exact ready idDevice
  | idFirmware => exact ready idFirmware

/-- A completed call takes one answer at most. -/
theorem answersFor_takenBy {a : Answers} {n : Nat} (enough : answersFor a (n + 1))
    (made : Option CallRecord) : answersFor (takenBy made a) n := by
  obtain ⟨get, set, push, idDevice, idFirmware⟩ := enough
  cases made with
  | none =>
    exact ⟨Nat.le_of_succ_le get, Nat.le_of_succ_le set, Nat.le_of_succ_le push,
      Nat.le_of_succ_le idDevice, Nat.le_of_succ_le idFirmware⟩
  | some m =>
    obtain ⟨call, answer⟩ := m
    cases call <;> simp only [answersFor, takenBy, withoutNext, Port.live_of, List.length_tail] <;>
      omega

theorem endingOf_ne_waits {cfg : Config} {a : Answers} {n : Nat} (enough : answersFor a (n + 1))
    (i : Instr) : endingOf cfg a i ≠ .waits := by
  intro waits
  obtain ⟨-, callWaits⟩ := pass_of_endingOf_eq_waits waits
  obtain ⟨c, -, unanswered⟩ := (callEnding_eq_waits_iff _ _ _).mp callWaits
  rw [answerReady_of_answersFor enough c] at unanswered
  cases unanswered

/-- With enough answers one step serves the first word: the core is ready for the next, and the run has
one triple more. -/
theorem step_serves_word {s : State} {w : Word} {ws : List Word} {n : Nat} (hs : Ready s)
    (noRequest : s.control = none) (offered : s.rx = w :: ws)
    (enough : answersFor s.answers (n + 1)) :
    ∃ t r, step s = .next t ∧ t.cfg = s.cfg ∧ t.stage = .idle ∧ t.control = none ∧ t.rx = ws ∧
      answersFor t.answers n ∧ t.history = s.history ++ [⟨w, r, t.tx⟩] ∧
      ownSeq t = ownSeq s + (if t.tx.isSome then 1#5 else 0#5) := by
  obtain ⟨hcfg, idle⟩ := hs
  have mid := midTransaction_accept (decode s.cfg w) { s with rx := ws }
  have ends := endingOf_ne_waits (cfg := s.cfg) enough (decode s.cfg w)
  obtain ⟨r, ended⟩ := mid.endedWith_apply (decode s.cfg w).packet ends
  have kept := mid.kept_apply (decode s.cfg w).packet (endingOf s.cfg s.answers (decode s.cfg w))
  have word : encodePacket (decode s.cfg w).packet = w := encode_decode s.cfg w
  have ran := exec_eq_endingOf (s := { s with rx := ws }) ⟨hcfg, idle⟩ (decode s.cfg w)
  refine ⟨_, r, (step_of_word hcfg noRequest idle offered).trans ran, kept.cfg, ended.stage,
    kept.control.trans noRequest, kept.rx, ?_, ended.history.trans (by rw [word]),
    ended.own⟩
  rw [Ending.apply_answers]
  exact answersFor_takenBy enough _

/-- Settles O48, by induction on the words offered: the first step serves the first word, and the rest
of the run serves the others. -/
theorem offeredWordsAreServedInOrder : Obligations.OfferedWordsAreServedInOrder := by
  intro ws
  induction ws with
  | nil =>
    intro s ⟨_, idle⟩ _ noWord _
    refine ⟨s, runSteps_zero s, by simp [runEnded, idle, noWord], rfl, [], ?_, rfl, ?_⟩
    · rw [List.append_nil]
    · exact (Nat.mod_eq_of_lt (ownSeq s).isLt).symm
  | cons w ws ih =>
    intro s hs noRequest offered enough
    obtain ⟨u, r, served, cfg, idle, control, words, answers, history, own⟩ :=
      step_serves_word hs noRequest offered enough
    obtain ⟨t, run, ended, cfg', os, history', inbound, own'⟩ :=
      ih u ⟨cfg ▸ hs.1, idle⟩ control words answers
    refine ⟨t, (runSteps_succ _ s u served).trans run, ended, cfg'.trans cfg, ⟨w, r, u.tx⟩ :: os,
      ?_, ?_, ?_⟩
    · rw [history', history, List.append_assoc, List.singleton_append]
    · rw [List.map_cons, inbound]
    · rw [own', own, BitVec.toNat_add]
      cases sent : u.tx with
      | none => simp
      | some out =>
        simp
        omega

end Sys2Proof.Machine
end
